-- ==== Sys2Proof/Word.lean ====
section
/-! DEFINITION. The word widths of the CORE's ports and commands. -/

namespace Sys2Proof

/-- A word of the register port, and the raw word of an `FX` number (20_memory.md R51, 00_scope.md R13). -/
abbrev Word := BitVec 32

/-- A command word, bits 15:0 of a `CMD` write (30_encoding.md R70). -/
abbrev Half := BitVec 16

/-- A raw sample: `RAW_BITS = 10` (00_scope.md R8, 20_memory.md R56). -/
abbrev RawSample := BitVec 10

/-- A duty percentage register or operand: 7 bits (10_state.md R23, 30_encoding.md R73). -/
abbrev Percent := BitVec 7

end Sys2Proof
end

