-- ==== Sys2Proof/Syntax.lean ====
section
/-! DEFINITION. The commands (one constructor per row of the opcode table, 30_encoding.md R74), and the shape of
the OPEN parameters (00_scope.md R9). -/

namespace Sys2Proof

/-- Channel number: 0 is the fan, 1 the pump (00_scope.md R8, R15). -/
inductive Ch where
  | ch0
  | ch1
deriving DecidableEq, Repr, Inhabited

/-- The seven commands with their operands (30_encoding.md R72 to R74). -/
inductive Instr where
  /-- `INIT`, 45_control_loop.md R151. -/
  | init
  /-- `CONFIG ch`, 44_pwm_channel.md R136. -/
  | config (ch : Ch)
  /-- `SMOOTH #raw`, 42_exponential_smoother.md R111. -/
  | smooth (raw : RawSample)
  /-- `ESTIM`, 41_temperature_estimator.md R101. -/
  | estim
  /-- `INTERP ch`, 40_curve_interpolator.md R92. -/
  | interp (ch : Ch)
  /-- `SETDUTY ch, #pct`, 44_pwm_channel.md R138; every 7-bit `pct` is encodable (30_encoding.md R73). -/
  | setduty (ch : Ch) (pct : Percent)
  /-- `TICK`, 45_control_loop.md R152. -/
  | tick
deriving DecidableEq, Repr, Inhabited

/-- One row `(t, d)` of the curve ROM: a signed 16-bit temperature and an unsigned 7-bit duty (20_memory.md R55). -/
structure Breakpoint where
  t : BitVec 16
  d : Percent
deriving DecidableEq, Repr, Inhabited

/-- The two ordered prescaler sets, by name (00_scope.md R8). -/
inductive Family where
  | familyA
  | familyB
deriving DecidableEq, Repr, Inhabited

/-- The OPEN parameters before their constraints (00_scope.md R9). Bit `ch` of `active` is `ACTIVE[ch]`. -/
structure ParamData where
  cpuHz : Word
  targetHz : Word
  active : BitVec 2
  pset0 : Family
  pset1 : Family
  curve0 : List Breakpoint
  curve1 : List Breakpoint
deriving DecidableEq, Repr, Inhabited

end Sys2Proof
end

