-- ==== Sys2Proof/Decode.lean ====
section
/-! DEFINITION. Decoding a 32-bit value written to `CMD` (30_encoding.md R70 to R75, R79), total, rejecting by name, and
after it the encoder, written from the field layout of R71 and R72. -/

namespace Sys2Proof

/-- Why a value written to `CMD` is an illegal word (30_encoding.md R75). All three are refused alike. -/
inductive IllegalWord where
  /-- Bits 31:16 are not all 0 (20_memory.md R53). -/
  | upperHalf
  /-- The operation code is 0x0 or 0x8 to 0xF. -/
  | undefinedOp
  /-- A defined operation code with a nonzero bit in a field its format does not use. -/
  | unusedField
deriving DecidableEq, Repr

/-- What a value written to `CMD` decodes to. -/
inductive Decoded where
  | command (i : Instr)
  | illegal (why : IllegalWord)
deriving DecidableEq, Repr

/-- One row of the opcode map (30_encoding.md R74). -/
structure OpRow where
  mnemonic : String
  pattern : Half
  mask : Half
deriving DecidableEq, Repr

def rowInit : OpRow := ⟨"INIT", 0x1000#16, 0xFFFF#16⟩
def rowConfig : OpRow := ⟨"CONFIG", 0x2000#16, 0xF7FF#16⟩
def rowSmooth : OpRow := ⟨"SMOOTH", 0x3000#16, 0xFC00#16⟩
def rowEstim : OpRow := ⟨"ESTIM", 0x4000#16, 0xFFFF#16⟩
def rowInterp : OpRow := ⟨"INTERP", 0x5000#16, 0xF7FF#16⟩
def rowSetduty : OpRow := ⟨"SETDUTY", 0x6000#16, 0xF780#16⟩
def rowTick : OpRow := ⟨"TICK", 0x7000#16, 0xFFFF#16⟩

/-- The complete opcode map, in the order of R74. -/
def opcodeMap : List OpRow := [rowInit, rowConfig, rowSmooth, rowEstim, rowInterp, rowSetduty, rowTick]

/-- "a word `w` decodes as the row when `w & mask = match`" (R74). -/
def OpRow.hits (r : OpRow) (h : Half) : Bool := decide (h &&& r.mask = r.pattern)

/-- Field `op`, bits 15:12 (R71). -/
def opField (h : Half) : BitVec 4 := h.extractLsb' 12 4

/-- Field `ch`, bit 11 (R71). -/
def chField (h : Half) : Ch := if h.getLsbD 11 then .ch1 else .ch0

/-- Field `imm`, bits 9:0 (R71); format `R` uses it whole (R73). -/
def rawField (h : Half) : RawSample := h.extractLsb' 0 10

/-- Field `pct`, bits 6:0, of format `P` (R72, R73). -/
def pctField (h : Half) : Percent := h.extractLsb' 0 7

/-- The command a 16-bit word stands for, none for an illegal word (R74, R75). -/
def decodeHalf (h : Half) : Option Instr :=
  if rowInit.hits h then some .init
  else if rowConfig.hits h then some (.config (chField h))
  else if rowSmooth.hits h then some (.smooth (rawField h))
  else if rowEstim.hits h then some .estim
  else if rowInterp.hits h then some (.interp (chField h))
  else if rowSetduty.hits h then some (.setduty (chField h) (pctField h))
  else if rowTick.hits h then some .tick
  else none

/-- Operation codes 0x1 to 0x7 are defined (R74, R75). -/
def opDefined (h : Half) : Bool := decide (1 ≤ (opField h).toNat) && decide ((opField h).toNat ≤ 7)

/-- The first two checks of R79 on a value written to `CMD`: the upper half, then the opcode map. -/
def decode (w : Word) : Decoded :=
  if w.extractLsb' 16 16 = 0#16 then
    match decodeHalf (w.extractLsb' 0 16) with
    | some i => .command i
    | none => if opDefined (w.extractLsb' 0 16) then .illegal .unusedField else .illegal .undefinedOp
  else .illegal .upperHalf

/-- The instruction the decoder reads from the low `nbits` bits of `w`, every bit above them 0. -/
def decodeTableWord (nbits w : Nat) : Option Instr :=
  match decode (BitVec.ofNat 32 (w % 2 ^ nbits)) with
  | .command i => some i
  | .illegal _ => none

/-- Bit 11 for a channel (R71). -/
def chBit : Ch → BitVec 1
  | .ch0 => 0#1
  | .ch1 => 1#1

/-- A command word from its fields (R71): `op` in bits 15:12, `ch` in bit 11, `imm` in bits 9:0; every other bit 0. -/
def assemble (op : BitVec 4) (ch : BitVec 1) (imm : BitVec 10) : Word :=
  (op.setWidth 32 <<< 12) ||| (ch.setWidth 32 <<< 11) ||| imm.setWidth 32

/-- The value to write to `CMD` for a command: formats `Z`, `C`, `R` and `P` of R72. -/
def encode : Instr → Word
  | .init => assemble 0x1#4 0#1 0#10
  | .config ch => assemble 0x2#4 (chBit ch) 0#10
  | .smooth raw => assemble 0x3#4 0#1 raw
  | .estim => assemble 0x4#4 0#1 0#10
  | .interp ch => assemble 0x5#4 (chBit ch) 0#10
  | .setduty ch pct => assemble 0x6#4 (chBit ch) (pct.setWidth 10)
  | .tick => assemble 0x7#4 0#1 0#10

/-- The row of the opcode map a command belongs to (R74). -/
def rowOf : Instr → OpRow
  | .init => rowInit
  | .config _ => rowConfig
  | .smooth _ => rowSmooth
  | .estim => rowEstim
  | .interp _ => rowInterp
  | .setduty _ _ => rowSetduty
  | .tick => rowTick

end Sys2Proof
end

