-- ==== Sys2Proof/WellFormed.lean ====
section
/-! DEFINITION. Well-formedness.
A command needs no check: its operand types are exactly the encodable ranges (30_encoding.md R73), so every `Instr` is
well formed. What can be ill formed on this hardware are the OPEN parameters (00_scope.md R9, R10; 40_curve_interpolator.md
R91; 93_implementation_defined.md U1). -/

namespace Sys2Proof

/-- Every neighbouring pair of rows satisfies `r`. -/
def chained (r : Breakpoint → Breakpoint → Bool) : List Breakpoint → Bool
  | [] => true
  | [_] => true
  | a :: b :: rest => r a b && chained r (b :: rest)

/-- R91 (a): 2 to `CURVE_MAX = 8` rows. -/
def curveLengthOk (c : List Breakpoint) : Bool := decide (2 ≤ c.length) && decide (c.length ≤ 8)

/-- R91 (b): strictly increasing temperatures, compared as signed numbers. -/
def curveTempsRise (c : List Breakpoint) : Bool := chained (fun a b => decide (a.t.toInt < b.t.toInt)) c

/-- R91 (c): every duty is at most 100. -/
def curveDutiesInRange (c : List Breakpoint) : Bool := c.all (fun r => decide (r.d.toNat ≤ 100))

/-- R91 (d): non-decreasing duties. -/
def curveDutiesRise (c : List Breakpoint) : Bool := chained (fun a b => decide (a.d.toNat ≤ b.d.toNat)) c

/-- R91 (e): the last duty is 100. -/
def curveEndsFull (c : List Breakpoint) : Bool :=
  match c.getLast? with
  | some r => decide (r.d.toNat = 100)
  | none => false

/-- A well-formed curve table (R91 (a) to (e); (f) requires nothing). -/
def curveWf (c : List Breakpoint) : Bool :=
  curveLengthOk c && curveTempsRise c && curveDutiesInRange c && curveDutiesRise c && curveEndsFull c

/-- The constraints of 00_scope.md R9 on the OPEN parameters. -/
def ParamData.wf (p : ParamData) : Bool :=
  decide (1 ≤ p.cpuHz.toNat) && decide (1 ≤ p.targetHz.toNat) && curveWf p.curve0 && curveWf p.curve1

end Sys2Proof
end

