-- ==== Sys2Proof/Config.lean ====
section
/-! DEFINITION. What is fixed when the CORE is instantiated, and the values the spec leaves open.
The OPEN parameters carry a proof of their constraints (00_scope.md R10, the subtype idiom). The free values are opaque
and have no body: nothing can be proved of them but what their type says. -/

namespace Sys2Proof

/-- The OPEN parameters with the proof that they are well formed (00_scope.md R9, R10). The default values only make the
type inhabited, for `Config.params`; they are the spec's example frequencies and the shortest tables, and nothing rests on
them. -/
structure Params where
  data : ParamData :=
    { cpuHz := 16000000#32, targetHz := 25000#32, active := 0b11#2, pset0 := .familyA, pset1 := .familyB,
      curve0 := [⟨0#16, 0#7⟩, ⟨25#16, 100#7⟩], curve1 := [⟨0#16, 0#7⟩, ⟨25#16, 100#7⟩] }
  ok : data.wf = true := by decide
deriving DecidableEq, Repr, Inhabited

/-- The parameters of the instance that `State.reset` belongs to: any well-formed ones (log entry 1). -/
opaque Config.params : Params

/-- The level on `raw_in` when the CORE leaves reset: any (20_memory.md R56; log entry 8). -/
opaque Config.rawAtReset : RawSample

/-- FREE VALUE: what a host read of a register holding no value returns (10_state.md R30 (a); log entry 2). -/
opaque Config.freeWord : Nat → Word

/-- FREE VALUE: what `INTERP` writes while `TEMP` holds no value, within R23's bound (10_state.md R30 (b); log entry 3). -/
opaque Config.freeDuty : Nat → Fin 101

/-- FREE VALUE: what a set-duty reads from a `TTOP[ch]` holding no value (10_state.md R30 (b); log entry 4). -/
opaque Config.freeTop : Nat → BitVec 8

/-- FREE VALUE: how many events of a command abandoned by reset were emitted (70_reset_and_hazards.md R185; log entry 10). -/
opaque Config.freeCount : Nat → Nat

end Sys2Proof
end

