-- ==== Sys2Proof/Machine/Arith.lean ====
section
/-! DEFINITION. The fixed parameters (00_scope.md R8) and the arithmetic every function shares (R12, R13). -/

namespace Sys2Proof.Machine

/-- `ALPHA_PREV`: 0.8 with 12 fractional bits. -/
def alphaPrev : Int := 3277

/-- `ALPHA_RAW`: 0.2 with 12 fractional bits. -/
def alphaRaw : Int := 819

/-- `K`, the calibration constant. -/
def calK : Int := 510

/-- `T_REF`. -/
def tRef : Int := 25

/-- `SLOPE_DIV`. -/
def slopeDiv : Int := -10

/-- `MID`, the start value of the smoother. -/
def mid : Int := 512

/-- `PWM_DIVISOR`, the counting range of 8-bit phase-correct mode. -/
def pwmDivisor : Nat := 510

/-- `FAMILY_A` and `FAMILY_B`, the ordered prescaler sets. -/
def prescalers : Family → List Nat
  | .familyA => [1, 8, 64, 256, 1024]
  | .familyB => [1, 8, 32, 64, 128, 256, 1024]

/-- `x >>a 12`, which is `x div_f 4096` (R12): Lean's division of integers rounds to the floor for a positive divisor. -/
def asr12 (x : Int) : Int := x / 4096

/-- `a div_t b`, truncating toward zero (R12). -/
def divT (a b : Int) : Int := a.tdiv b

/-- `fx(n)`, the raw word of an integer (R13). -/
def fx (n : Int) : Word := BitVec.ofInt 32 (n * 4096)

/-- `int(w)`, the integer part of a raw word, rounded toward minus infinity (R13). -/
def fxInt (w : Word) : Int := asr12 w.toInt

end Sys2Proof.Machine
end

