-- ==== Sys2Proof/Machine/State.lean ====
section
/-! DEFINITION. The state of the CORE (10_state.md), as plain data, and the state after reset (10_state.md R31). -/

namespace Sys2Proof.Machine

/-- The contents of a register that may hold no value. "Holds no value" is the spec's own "definite status of a
register, not a number" (10_state.md R30). -/
inductive Held (α : Type) where
  | noValue
  | value (v : α)
deriving DecidableEq, Repr

/-- `STATUS` (10_state.md R25): its five implemented bits. Bits 3:1 and 31:8 have no storage and read as 0. -/
structure Status where
  /-- Bit 0, the control-loop state (R24). -/
  run : Bool
  /-- Bit 4, sticky (60_exceptions.md R166). -/
  illcmd : Bool
  /-- Bit 5, sticky (60_exceptions.md R167). -/
  pcterr : Bool
  /-- Bit 6, sticky (60_exceptions.md R168). -/
  topovf0 : Bool
  /-- Bit 7, sticky (60_exceptions.md R168). -/
  topovf1 : Bool
deriving DecidableEq, Repr

/-- The two fields of `TPRESC[ch]` (10_state.md R27); bit 11 has no storage. -/
structure Presc where
  /-- `PIDX`, bits 14:12. -/
  pidx : BitVec 3
  /-- `DIV`, bits 10:0. -/
  div : BitVec 11
deriving DecidableEq, Repr

/-- The registers of one channel: `DUTY[ch]` and the four adapter registers (10_state.md R23, R26 to R29). -/
structure Channel where
  duty : Held Percent
  tmode : BitVec 1
  tpresc : Held Presc
  ttop : Held (BitVec 8)
  tcmp : Held (BitVec 8)
deriving DecidableEq, Repr

/-- The field of a timer write with the value sent (20_memory.md R58). -/
inductive TimerField where
  | mode (v : BitVec 1)
  | presc (v : Presc)
  | top (v : BitVec 8)
  | cmp (v : BitVec 8)
deriving DecidableEq, Repr

/-- One `TimerWrite(ch, field, v)` event (20_memory.md R58). -/
structure TimerEvent where
  ch : Ch
  write : TimerField
deriving DecidableEq, Repr

/-- One word returned by the register port (20_memory.md R52). -/
structure PortRead where
  idx : BitVec 4
  word : Word
deriving DecidableEq, Repr

/-- What the outside world can do to the CORE (60_exceptions.md R178). -/
inductive HostAccess where
  /-- `RegWrite(idx, w)` (20_memory.md R53). -/
  | write (idx : BitVec 4) (w : Word)
  /-- `RegRead(idx)` (20_memory.md R52). -/
  | read (idx : BitVec 4)
  /-- The sensor port presents another value from then on (20_memory.md R56). -/
  | present (raw : RawSample)
  /-- Reset is asserted while no command runs (70_reset_and_hazards.md R185). -/
  | reset
  /-- `RegWrite(idx, w)`, and reset is asserted before the command it starts is complete (70_reset_and_hazards.md R185). -/
  | writeAborted (idx : BitVec 4) (w : Word)
deriving DecidableEq, Repr

/-- The state. The registers are those of 10_state.md; the rest is the parameters and the ports (INVENTORY.md). -/
structure State where
  /-- `AVG` (R21). -/
  avg : Word
  /-- `TEMP` (R22). -/
  temp : Held Word
  /-- `STATUS` (R25). -/
  status : Status
  /-- The registers of channel 0, the fan. -/
  ch0 : Channel
  /-- The registers of channel 1, the pump. -/
  ch1 : Channel
  /-- The OPEN parameters, constant for life (00_scope.md R7, R9; log entry 1). -/
  params : Params
  /-- The level on the sensor port `raw_in` (20_memory.md R56). -/
  rawIn : RawSample
  /-- The host's accesses the port has not accepted yet, oldest first (log entry 7). -/
  pending : List HostAccess
  /-- The `TimerWrite` events emitted, oldest first (20_memory.md R58). -/
  events : List TimerEvent
  /-- The words the register port has returned, oldest first (log entry 9). -/
  reads : List PortRead
  /-- How many free values have been drawn; the model's own (log entry 5). -/
  draws : Nat
deriving DecidableEq, Repr

/-- The CORE has no fault that stops it: "The CORE itself never halts" (60_exceptions.md R170), and a step always
answers a next state. Nobody raises a fault. -/
inductive Fault where
deriving DecidableEq, Repr

/-- Why an instruction has no meaning in the model. -/
inductive Refusal where
  /-- Raised by an arm of `exec` whose instruction has no meaning yet; safe. No arm raises it: all seven are modelled. -/
  | notModelled (mnemonic : String)
deriving DecidableEq, Repr

/-- A channel's registers after reset (10_state.md R31). -/
def Channel.reset : Channel :=
  { duty := .noValue, tmode := 0#1, tpresc := .noValue, ttop := .noValue, tcmp := .noValue }

/-- `STATUS = 0` (10_state.md R31). -/
def Status.reset : Status := { run := false, illcmd := false, pcterr := false, topovf0 := false, topovf1 := false }

/-- The state after reset (10_state.md R31) of an instance with the given parameters, on whose sensor port `raw` stands. -/
def State.resetWith (p : Params) (raw : RawSample) : State :=
  { avg := 0x00200000#32, temp := .noValue, status := Status.reset, ch0 := Channel.reset, ch1 := Channel.reset,
    params := p, rawIn := raw, pending := [], events := [], reads := [], draws := 0 }

/-- The machine right after reset, with any well-formed parameters and any level on the sensor port. -/
def State.reset : State := State.resetWith Config.params Config.rawAtReset

end Sys2Proof.Machine
end

