-- ==== Sys2Proof/Machine/Flags.lean ====
section
/-! DEFINITION. `STATUS` as the host reads it, the sticky flags and `fault_out` (10_state.md R25, 60_exceptions.md R165
to R170). The flags take the place of exceptions: setting one is all that happens where another machine would trap. -/

namespace Sys2Proof.Machine

/-- `STATUS` as a 32-bit word: `RUN` in bit 0, the four flags in bits 4 to 7, every other bit 0 (R25). -/
def Status.word (t : Status) : Word :=
  0#24 ++ (BitVec.ofBool t.topovf1 ++ BitVec.ofBool t.topovf0 ++ BitVec.ofBool t.pcterr ++ BitVec.ofBool t.illcmd
    ++ 0#3 ++ BitVec.ofBool t.run)

/-- `TOPOVF[ch]`. -/
def Status.topovf (t : Status) : Ch → Bool
  | .ch0 => t.topovf0
  | .ch1 => t.topovf1

/-- `STATUS` with `TOPOVF[ch]` set if `ovf`, otherwise as it was (R168). -/
def Status.noteTopovf (t : Status) (c : Ch) (ovf : Bool) : Status :=
  match c with
  | .ch0 => { t with topovf0 := t.topovf0 || ovf }
  | .ch1 => { t with topovf1 := t.topovf1 || ovf }

/-- `fault_out`: the OR of `STATUS[7:4]` (R170). -/
def State.faultOut (s : State) : Bool :=
  s.status.illcmd || s.status.pcterr || s.status.topovf0 || s.status.topovf1

/-- Refuse with `flag ILLCMD`: nothing else changes (R166). -/
def State.flagIllcmd (s : State) : State := { s with status := { s.status with illcmd := true } }

/-- Refuse with `flag PCTERR`: nothing else changes (R167). -/
def State.flagPcterr (s : State) : State := { s with status := { s.status with pcterr := true } }

/-- `flag TOPOVF[ch]` if the computed TOP did not fit (R168). -/
def State.flagTopovf (c : Ch) (ovf : Bool) (s : State) : State := { s with status := s.status.noteTopovf c ovf }

/-- `STATUS.RUN <- 1` (10_state.md R24). -/
def State.startRun (s : State) : State := { s with status := { s.status with run := true } }

end Sys2Proof.Machine
end

