-- ==== Sys2Proof/Machine/Ops.lean ====
section
/-! DEFINITION. The named operations over registers and ports that the meanings share. -/

namespace Sys2Proof.Machine

/-- `PSET[ch]` (00_scope.md R9). -/
def paramPset (p : Params) : Ch → Family
  | .ch0 => p.data.pset0
  | .ch1 => p.data.pset1

/-- `CURVE[ch]`, the curve ROM (20_memory.md R55). -/
def paramCurve (p : Params) : Ch → List Breakpoint
  | .ch0 => p.data.curve0
  | .ch1 => p.data.curve1

/-- `ACTIVE[ch] = 1` (00_scope.md R9, R15). -/
def paramActive (p : Params) : Ch → Bool
  | .ch0 => p.data.active.getLsbD 0
  | .ch1 => p.data.active.getLsbD 1

/-- Channel `ch` is active. -/
def State.active (s : State) (c : Ch) : Bool := paramActive s.params c

/-- The registers of channel `ch` (00_scope.md R15). -/
def State.chan (s : State) : Ch → Channel
  | .ch0 => s.ch0
  | .ch1 => s.ch1

/-- Replace the registers of channel `ch`. -/
def State.setChan (c : Ch) (x : Channel) (s : State) : State :=
  { s with
    ch0 := match c with
      | .ch0 => x
      | .ch1 => s.ch0
    ch1 := match c with
      | .ch0 => s.ch1
      | .ch1 => x }

/-- `AVG <- v`. -/
def State.writeAvg (v : Word) (s : State) : State := { s with avg := v }

/-- `TEMP <- v`. -/
def State.writeTemp (v : Word) (s : State) : State := { s with temp := .value v }

/-- `DUTY[ch] <- v`. -/
def State.writeDuty (c : Ch) (v : Percent) (s : State) : State := s.setChan c { s.chan c with duty := .value v }

/-- The adapter register a timer write is mirrored in (20_memory.md R58). -/
def Channel.mirror (x : Channel) : TimerField → Channel
  | .mode v => { x with tmode := v }
  | .presc v => { x with tpresc := .value v }
  | .top v => { x with ttop := .value v }
  | .cmp v => { x with tcmp := .value v }

/-- `TimerWrite(ch, field, v)` together with the write of the matching adapter register: the only way those change
(20_memory.md R58). -/
def State.timerWrite (c : Ch) (f : TimerField) (s : State) : State :=
  { s.setChan c ((s.chan c).mirror f) with events := s.events ++ [⟨c, f⟩] }

/-- One free value has been drawn. -/
def State.drawn (s : State) : State := { s with draws := s.draws + 1 }

/-- The value a set-duty reads from `TTOP[ch]`; a free value while the register holds none (10_state.md R30 (b)). -/
def State.topRead (s : State) (c : Ch) : BitVec 8 :=
  match (s.chan c).ttop with
  | .value v => v
  | .noValue => Config.freeTop s.draws

/-- The state after that read: a free value that was used up is counted. -/
def State.afterTopRead (c : Ch) (s : State) : State :=
  match (s.chan c).ttop with
  | .value _ => s
  | .noValue => s.drawn

/-- Reset (70_reset_and_hazards.md R185, 10_state.md R31): every register as R31 says; no event; parameters, the level on
the sensor port, the host's further accesses and the histories are not registers and stay. -/
def State.resetRegisters (s : State) : State :=
  { s with
    avg := 0x00200000#32, temp := .noValue, status := Status.reset, ch0 := Channel.reset, ch1 := Channel.reset }

end Sys2Proof.Machine
end

