-- ==== Sys2Proof/Machine/Operands.lean ====
section
/-! DEFINITION. What a decoded command must still satisfy before it has an effect (30_encoding.md R76, R79), and the one
gate every meaning goes through. -/

namespace Sys2Proof.Machine

/-- Legality by `RUN` and channel: the table of R76. -/
def State.legal (s : State) : Instr → Bool
  | .init => !s.status.run
  | .config c => !s.status.run && s.active c
  | .smooth _ => s.status.run
  | .estim => s.status.run
  | .interp c => s.status.run && s.active c
  | .setduty c _ => s.status.run && s.active c
  | .tick => s.status.run

/-- A percentage within the contract of set-duty, 0 to 100 (30_encoding.md R73, 44_pwm_channel.md R141). -/
def percentOk (pct : Percent) : Bool := decide (pct.toNat ≤ 100)

/-- A command that is legal has its effect; one that is not is refused with `ILLCMD` and no other effect (R76, 60_exceptions.md
R166). Either way the CORE goes on. -/
def whenLegal (i : Instr) (effect : State → State) (s : State) : Host.Outcome State Fault Refusal :=
  .next (if s.legal i then effect s else s.flagIllcmd)

end Sys2Proof.Machine
end

