-- ==== Sys2Proof/Machine/Estimator.lean ====
section
/-! DEFINITION. The temperature estimator and the command `ESTIM` (41_temperature_estimator.md). -/

namespace Sys2Proof.Machine

/-- `estimate(a)` (R102): negate and add `K`, divide by -10 toward zero, add 25; subtraction and addition `mod 2^32`
(R103; log entry 13). -/
def estimate (a : Word) : Word := BitVec.ofInt 32 (divT (fx calK - a).toInt slopeDiv) + fx tRef

/-- `TEMP <- estimate(AVG)`. -/
def estimEffect (s : State) : State := s.writeTemp (estimate s.avg)

/-- `ESTIM` (R101). -/
def execEstim (s : State) : Host.Outcome State Fault Refusal := whenLegal .estim estimEffect s

end Sys2Proof.Machine
end

