-- ==== Sys2Proof/Machine/Interpolator.lean ====
section
/-! DEFINITION. The curve interpolator and the command `INTERP` (40_curve_interpolator.md). -/

namespace Sys2Proof.Machine

/-- The last line of R93, between the rows `lo` and `hi`; temperatures are signed, duties unsigned (R97). -/
def interpBetween (lo hi : Breakpoint) (t : Int) : Percent :=
  BitVec.ofInt 7
    (divT ((lo.d.toNat : Int) * (hi.t.toInt - t) + (hi.d.toNat : Int) * (t - lo.t.toInt)) (hi.t.toInt - lo.t.toInt))

/-- The scan of R93 after the row `lo`, which does not exceed `t`: stop at the first row that strictly exceeds `t`;
100 when there is none. -/
def interpFrom (lo : Breakpoint) : List Breakpoint → Int → Percent
  | [], _ => 100#7
  | hi :: rest, t => if t < hi.t.toInt then interpBetween lo hi t else interpFrom hi rest t

/-- `interp(C, t)` (R93); below the first breakpoint its duty (R94). -/
def interp (curve : List Breakpoint) (t : Int) : Percent :=
  match curve with
  | [] => 100#7
  | first :: rest => if t < first.t.toInt then first.d else interpFrom first rest t

/-- `DUTY[ch] <- interp(CURVE[ch], int(TEMP))`; while `TEMP` holds no value the duty is a free value (10_state.md R30 (b);
log entry 3). -/
def interpEffect (c : Ch) (s : State) : State :=
  match s.temp with
  | .value w => s.writeDuty c (interp (paramCurve s.params c) (fxInt w))
  | .noValue => s.drawn.writeDuty c (BitVec.ofNat 7 (Config.freeDuty s.draws).val)

/-- `INTERP ch` (R92). -/
def execInterp (c : Ch) (s : State) : Host.Outcome State Fault Refusal := whenLegal (.interp c) (interpEffect c) s

end Sys2Proof.Machine
end

