-- ==== Sys2Proof/Machine/Selector.lean ====
section
/-! DEFINITION. The prescaler and period selector (43_prescaler_selector.md). It has no command of its own. -/

namespace Sys2Proof.Machine

/-- What `select` computes: `DIV`, `PIDX` and `top_full`. -/
structure Selection where
  div : Nat
  pidx : Nat
  topFull : Nat
deriving DecidableEq, Repr

/-- `q0` of R121. -/
def rangeQuotient (cpuHz targetHz : Word) : Nat := cpuHz.toNat / targetHz.toNat

/-- `approx` of R121. -/
def approxRange (cpuHz targetHz : Word) : Nat := rangeQuotient cpuHz targetHz / pwmDivisor

/-- The walk of R122: the smallest index whose prescaler strictly exceeds `approx`, else the last index. -/
def walkIndex (set : List Nat) (approx : Nat) : Nat :=
  (set.findIdx? (fun p => decide (approx < p))).getD (set.length - 1)

/-- `select` (R121, R122, R124). -/
def select (cpuHz targetHz : Word) (f : Family) : Selection :=
  let j := walkIndex (prescalers f) (approxRange cpuHz targetHz)
  let div := (prescalers f)[j]?.getD 1
  { div := div, pidx := j, topFull := rangeQuotient cpuHz targetHz / div / 2 }

/-- `top`, the low 8 bits of `top_full` (R124). -/
def Selection.top (x : Selection) : BitVec 8 := BitVec.ofNat 8 x.topFull

/-- What goes into `TPRESC[ch]` (R123). -/
def Selection.presc (x : Selection) : Presc := { pidx := BitVec.ofNat 3 x.pidx, div := BitVec.ofNat 11 x.div }

/-- TOP does not fit 8 bits (R126). -/
def Selection.overflow (x : Selection) : Bool := decide (255 < x.topFull)

end Sys2Proof.Machine
end

