-- ==== Sys2Proof/Machine/PwmChannel.lean ====
section
/-! DEFINITION. The PWM channel adapter and the commands `CONFIG` and `SETDUTY` (44_pwm_channel.md). -/

namespace Sys2Proof.Machine

/-- `select` on the parameters of channel `ch` (43_prescaler_selector.md R120). -/
def channelSelection (p : Params) (c : Ch) : Selection := select p.data.cpuHz p.data.targetHz (paramPset p c)

/-- `configure(ch)` (R136): MODE, PRESC, TOP in this order, then the overflow flag. -/
def configure (c : Ch) (s : State) : State :=
  let x := channelSelection s.params c
  (((s.timerWrite c (.mode 1#1)).timerWrite c (.presc x.presc)).timerWrite c (.top x.top)).flagTopovf c x.overflow

/-- `duty_ticks(top, pct)` (R137): the product first, then the floor of its hundredth. -/
def dutyTicks (top : BitVec 8) (pct : Percent) : BitVec 8 := BitVec.ofNat 8 (top.toNat * pct.toNat / 100)

/-- `set_duty(ch, pct)` (R138). -/
def setDuty (c : Ch) (pct : Percent) (s : State) : State :=
  (s.afterTopRead c).timerWrite c (.cmp (dutyTicks (s.topRead c) pct))

/-- `SETDUTY` once it is legal: above 100 percent it is refused with `PCTERR` (R138, R141). -/
def setdutyEffect (c : Ch) (pct : Percent) (s : State) : State :=
  if percentOk pct then setDuty c pct s else s.flagPcterr

/-- `CONFIG ch` (R136). -/
def execConfig (c : Ch) (s : State) : Host.Outcome State Fault Refusal := whenLegal (.config c) (configure c) s

/-- `SETDUTY ch, #pct` (R138). -/
def execSetduty (c : Ch) (pct : Percent) (s : State) : Host.Outcome State Fault Refusal :=
  whenLegal (.setduty c pct) (setdutyEffect c pct) s

end Sys2Proof.Machine
end

