-- ==== Sys2Proof/Machine/Smoother.lean ====
section
/-! DEFINITION. The exponential smoother and the command `SMOOTH` (42_exponential_smoother.md). -/

namespace Sys2Proof.Machine

/-- `smooth(a, r)` (R112): the exact product with 0.8, its low 12 bits dropped, plus the exact product with 0.2, `mod 2^32`. -/
def smooth (a : Word) (r : RawSample) : Word :=
  BitVec.ofInt 32 (asr12 (a.toInt * alphaPrev) + (r.toNat : Int) * alphaRaw)

/-- `AVG <- smooth(AVG, raw)`. -/
def smoothEffect (raw : RawSample) (s : State) : State := s.writeAvg (smooth s.avg raw)

/-- `SMOOTH #raw` (R111). -/
def execSmooth (raw : RawSample) (s : State) : Host.Outcome State Fault Refusal :=
  whenLegal (.smooth raw) (smoothEffect raw) s

end Sys2Proof.Machine
end

