-- ==== Sys2Proof/Machine/ControlLoop.lean ====
section
/-! DEFINITION. The control loop and the commands `INIT` and `TICK` (45_control_loop.md). -/

namespace Sys2Proof.Machine

/-- Do `effect` for channel `ch` if it is active. -/
def whenActive (c : Ch) (effect : State → State) (s : State) : State := if s.active c then effect s else s

/-- `INIT` once it is legal (R151): configure the active channels, 0 before 1 (R153), load the smoother, enter Running. -/
def initEffect (s : State) : State :=
  ((whenActive .ch1 (configure .ch1) (whenActive .ch0 (configure .ch0) s)).writeAvg (fx mid)).startRun

/-- One channel's part of a tick (R152): the duty set is the one just interpolated. -/
def tickChannel (c : Ch) (t : Int) (s : State) : State :=
  let d := interp (paramCurve s.params c) t
  setDuty c d (s.writeDuty c d)

/-- `TICK` once it is legal (R152): every step uses what the step before it produced. -/
def tickEffect (s : State) : State :=
  let avg := smooth s.avg s.rawIn
  let temp := estimate avg
  let t := fxInt temp
  whenActive .ch1 (tickChannel .ch1 t) (whenActive .ch0 (tickChannel .ch0 t) ((s.writeAvg avg).writeTemp temp))

/-- `INIT` (R151). -/
def execInit (s : State) : Host.Outcome State Fault Refusal := whenLegal .init initEffect s

/-- `TICK` (R152). -/
def execTick (s : State) : Host.Outcome State Fault Refusal := whenLegal .tick tickEffect s

end Sys2Proof.Machine
end

