-- ==== Sys2Proof/Machine/Dispatch.lean ====
section
/-! DEFINITION. One arm per command, each one direct call of its meaning. -/

namespace Sys2Proof.Machine

def exec (i : Instr) (s : State) : Host.Outcome State Fault Refusal :=
  match i with
  | .init => Sys2Proof.Machine.execInit s
  | .config ch => Sys2Proof.Machine.execConfig ch s
  | .smooth raw => Sys2Proof.Machine.execSmooth raw s
  | .estim => Sys2Proof.Machine.execEstim s
  | .interp ch => Sys2Proof.Machine.execInterp ch s
  | .setduty ch pct => Sys2Proof.Machine.execSetduty ch pct s
  | .tick => Sys2Proof.Machine.execTick s

end Sys2Proof.Machine
end

