-- ==== Sys2Proof/Machine/Port.lean ====
section
/-! DEFINITION. The host's side of the CORE: the register port (20_memory.md R50 to R54), the sensor port (R56) and reset
(70_reset_and_hazards.md R185), and how a step takes the next access. -/

namespace Sys2Proof.Machine

/-- `TPRESC[ch]` as its 15 bits `{PIDX, 0, DIV}` (44_pwm_channel.md R136). -/
def Presc.bits (p : Presc) : BitVec 15 := (p.pidx.setWidth 15 <<< 12) ||| p.div.setWidth 15

/-- The contents of a register as a 32-bit word, unimplemented bits 0. -/
def Held.toWord {n : Nat} : Held (BitVec n) → Held Word
  | .noValue => .noValue
  | .value v => .value (v.setWidth 32)

/-- `TPRESC[ch]` as a 32-bit word. -/
def prescWord : Held Presc → Held Word
  | .noValue => .noValue
  | .value p => .value (p.bits.setWidth 32)

/-- The register map (20_memory.md R51): `CMD` and the reserved indices 0x6, 0x7 read as 0 (R52, R54). -/
def State.register (s : State) (idx : BitVec 4) : Held Word :=
  match idx.toNat with
  | 0x1 => .value s.status.word
  | 0x2 => .value s.avg
  | 0x3 => s.temp
  | 0x4 => s.ch0.duty.toWord
  | 0x5 => s.ch1.duty.toWord
  | 0x8 => .value (s.ch0.tmode.setWidth 32)
  | 0x9 => prescWord s.ch0.tpresc
  | 0xA => s.ch0.ttop.toWord
  | 0xB => s.ch0.tcmp.toWord
  | 0xC => .value (s.ch1.tmode.setWidth 32)
  | 0xD => prescWord s.ch1.tpresc
  | 0xE => s.ch1.ttop.toWord
  | 0xF => s.ch1.tcmp.toWord
  | _ => .value 0#32

/-- The register port has returned `w` for `idx`. -/
def State.returned (idx : BitVec 4) (w : Word) (s : State) : State := { s with reads := s.reads ++ [⟨idx, w⟩] }

/-- `RegRead(idx)` (R52): no register changes; a register holding no value returns a free word (10_state.md R30 (a)). -/
def regRead (idx : BitVec 4) (s : State) : State :=
  match s.register idx with
  | .value w => s.returned idx w
  | .noValue => s.drawn.returned idx (Config.freeWord s.draws)

/-- A write to `CMD`: decode, then the command or the refusal of an illegal word (30_encoding.md R75, R79). -/
def cmdWrite (w : Word) (s : State) : Host.Outcome State Fault Refusal :=
  match decode w with
  | .command i => exec i s
  | .illegal _ => .next s.flagIllcmd

/-- `RegWrite(idx, w)` (R53): a command at index 0, ignored anywhere else. -/
def regWrite (idx : BitVec 4) (w : Word) (s : State) : Host.Outcome State Fault Refusal :=
  if idx = 0#4 then cmdWrite w s else .next s

/-- Reset while the command that led from `s` to `t` was running (70_reset_and_hazards.md R185): a free count of that
command's first events was emitted, and the registers are as after any reset (log entry 10). -/
def abandoned (s t : State) : State :=
  { s.resetRegisters with
    events := s.events ++ (t.events.drop s.events.length).take (Config.freeCount t.draws), draws := t.draws + 1 }

/-- A write whose command reset abandons. -/
def regWriteAborted (idx : BitVec 4) (w : Word) (s : State) : Host.Outcome State Fault Refusal :=
  match regWrite idx w s with
  | .next t => .next (abandoned s t)
  | .fault f => .fault f
  | .refused r => .refused r

/-- What one access of the outside world does. -/
def perform (a : HostAccess) (s : State) : Host.Outcome State Fault Refusal :=
  match a with
  | .write idx w => regWrite idx w s
  | .read idx => .next (regRead idx s)
  | .present raw => .next { s with rawIn := raw }
  | .reset => .next s.resetRegisters
  | .writeAborted idx w => regWriteAborted idx w s

/-- The port accepts the next access (20_memory.md R62). -/
def State.accepted (s : State) (rest : List HostAccess) : State := { s with pending := rest }

/-- Take the next access and perform it to completion; with none waiting the CORE is idle and holds its state
(60_exceptions.md R181). -/
def advance (s : State) : Host.Outcome State Fault Refusal :=
  match s.pending with
  | [] => .next s
  | a :: rest => perform a (s.accepted rest)

/-- The host's next access is a write of `w` to `CMD`. -/
def State.withCommand (s : State) (w : Word) : State := { s with pending := .write 0#4 w :: s.pending }

end Sys2Proof.Machine
end

