-- ==== Sys2Proof/Safety.lean ====
section
/-! DEFINITION. What counts as a safe run, and the invariants the spec states, in the terms the claims use. -/

namespace Sys2Proof.Machine

/-- "no sticky flag set", the premise R174 asks a claim about behaviour to take. -/
def State.clean (s : State) : Bool := !s.faultOut

/-- `p` holds of the value, if there is one. -/
def Held.all {α : Type} (p : α → Bool) : Held α → Bool
  | .noValue => true
  | .value v => p v

/-- `0 <= AVG <= fx(RAW_MAX)` (10_state.md R21). -/
def avgInRange (a : Word) : Bool := decide (a.toNat ≤ 4190208)

/-- The range of R103. -/
def tempInRange (w : Word) : Bool := decide (-106496 ≤ w.toInt) && decide (w.toInt ≤ 312524)

/-- `TCMP[ch] <= TTOP[ch]`, both holding a value (44_pwm_channel.md R139). -/
def cmpWithinTop (ttop : Held (BitVec 8)) (v : BitVec 8) : Bool :=
  match ttop with
  | .noValue => false
  | .value u => decide (v.toNat ≤ u.toNat)

/-- A channel that has been configured holds what `select` gives and its overflow flag says so; one that has not holds
neither (10_state.md R26 to R28, 43_prescaler_selector.md R126). -/
def channelConfigured (p : Params) (ovf : Bool) (c : Ch) (x : Channel) : Bool :=
  if x.tmode = 1#1 then
    decide (x.tpresc = .value (channelSelection p c).presc) && decide (x.ttop = .value (channelSelection p c).top)
      && decide (ovf = (channelSelection p c).overflow)
  else decide (x.tpresc = .noValue) && decide (x.ttop = .noValue) && !ovf

/-- What holds of one channel's registers in every state reachable from reset: the duty is a percentage (R23), the
compare value is within TOP (R139), an inactive channel is as reset left it (R23, 45_control_loop.md R151), an active one is
configured once `RUN = 1` (R30), and before that neither duty nor compare value has been written (30_encoding.md R76). -/
def channelInv (p : Params) (run ovf : Bool) (c : Ch) (x : Channel) : Bool :=
  x.duty.all percentOk && x.tcmp.all (cmpWithinTop x.ttop)
    && (paramActive p c || decide (x = Channel.reset))
    && (!run || !paramActive p c || decide (x.tmode = 1#1))
    && channelConfigured p ovf c x
    && (run || (decide (x.duty = .noValue) && decide (x.tcmp = .noValue)))

/-- The invariant of the machine: `AVG` and `TEMP` in range (R21, R103), nothing of Running before `RUN = 1`
(30_encoding.md R76), and both channels as `channelInv` says. -/
def State.inv (s : State) : Bool :=
  avgInRange s.avg && s.temp.all tempInRange
    && (s.status.run || (decide (s.temp = .noValue) && decide (s.avg = 0x00200000#32) && !s.status.pcterr))
    && channelInv s.params s.status.run s.status.topovf0 .ch0 s.ch0
    && channelInv s.params s.status.run s.status.topovf1 .ch1 s.ch1

/-- The adapter registers a timer of channel `c` would hold after the events, each field with the last value sent for it
(20_memory.md R58). -/
def lastSent (c : Ch) (events : List TimerEvent) : Channel :=
  events.foldl (fun x e => if e.ch = c then x.mirror e.write else x) Channel.reset

/-- "each adapter register that holds a value equals the last value sent for that field" (20_memory.md R58); `TMODE[ch]`
is compared once it is 1, since reset leaves it 0 without a write. -/
def channelMirrored (c : Ch) (events : List TimerEvent) (x : Channel) : Bool :=
  x.tpresc.all (fun v => decide ((lastSent c events).tpresc = .value v))
    && x.ttop.all (fun v => decide ((lastSent c events).ttop = .value v))
    && x.tcmp.all (fun v => decide ((lastSent c events).tcmp = .value v))
    && (decide (x.tmode = 0#1) || decide ((lastSent c events).tmode = x.tmode))

/-- R58's invariant for both channels. -/
def State.mirrored (s : State) : Bool :=
  channelMirrored .ch0 s.events s.ch0 && channelMirrored .ch1 s.events s.ch1

end Sys2Proof.Machine
end

