-- ==== Sys2Proof/Certificates/Slice0/Obligations.lean ====
section
/-! DEFINITION. The statements for the provers, in the order of OBLIGATIONS.json. Each docstring says which rule of spec/
it formalises; where a clause rests on a choice of the model it names the log entry. -/

open Sys2Proof Sys2Proof.Machine

/-- R31: what every register holds after reset, of the machine as it comes up and after a reset from any state. -/
def Obligations.ResetLeavesStatedState : Prop :=
  ∀ s : State, (s = State.reset ∨ ∃ u, perform .reset u = .next s) →
    s.status.word = 0#32 ∧ s.avg = 0x00200000#32 ∧ s.temp = .noValue ∧
    ∀ c, (s.chan c).tmode = 0#1 ∧ (s.chan c).duty = .noValue ∧ (s.chan c).tpresc = .noValue ∧
      (s.chan c).ttop = .noValue ∧ (s.chan c).tcmp = .noValue

/-- R185: reset between commands emits no event; reset during the command a write starts leaves the same registers, and of
that command's events some first ones were emitted, with no guarantee about how many (here: there is a `k`). The parameters
are the same after every reset (R186; that they are a field of State is log entry 1). The model's choices: that the level on
`raw_in` stays (log entry 8), that the event history stays (log entry 9), that the emitted events are the first ones (log
entry 10). -/
def Obligations.ResetEmitsNothingAndMayAbandonACommand : Prop :=
  ∀ s : State,
    (∃ t, perform .reset s = .next t ∧ t.events = s.events ∧ t.params = s.params ∧ t.rawIn = s.rawIn ∧
      t.status.word = 0#32 ∧ t.avg = 0x00200000#32 ∧ t.temp = .noValue ∧ t.ch0 = Channel.reset ∧
      t.ch1 = Channel.reset) ∧
    ∀ idx w, ∃ done t k, regWrite idx w s = .next done ∧ perform (.writeAborted idx w) s = .next t ∧
      t.status.word = 0#32 ∧ t.avg = 0x00200000#32 ∧ t.temp = .noValue ∧ t.ch0 = Channel.reset ∧
      t.ch1 = Channel.reset ∧ t.params = s.params ∧ t.rawIn = s.rawIn ∧
      t.events = s.events ++ (done.events.drop s.events.length).take k

/-- Encoding and decoding agree for every command with every operand (R71 to R74). -/
def Obligations.DecodeOfEncodeIsTheCommand : Prop := ∀ i : Instr, decode (encode i) = .command i

/-- Each value written to `CMD` that decodes is the encoding of what it decodes to (R71 to R74). -/
def Obligations.EncodeOfDecodeIsTheWord : Prop := ∀ (w : Word) (i : Instr), decode w = .command i → encode i = w

/-- R74: the rows of the opcode map, that they are disjoint, and that a 16-bit word decodes as a command of a row exactly
when `w & mask = match`. -/
def Obligations.OpcodeMapIsAsStatedAndDisjoint : Prop :=
  opcodeMap.map (fun r => (r.mnemonic, r.pattern, r.mask)) =
    [("INIT", 0x1000#16, 0xFFFF#16), ("CONFIG", 0x2000#16, 0xF7FF#16), ("SMOOTH", 0x3000#16, 0xFC00#16),
      ("ESTIM", 0x4000#16, 0xFFFF#16), ("INTERP", 0x5000#16, 0xF7FF#16), ("SETDUTY", 0x6000#16, 0xF780#16),
      ("TICK", 0x7000#16, 0xFFFF#16)] ∧
  (∀ r ∈ opcodeMap, ∀ q ∈ opcodeMap, ∀ h : Half, h &&& r.mask = r.pattern → h &&& q.mask = q.pattern → r = q) ∧
  ∀ r ∈ opcodeMap, ∀ h : Half, h &&& r.mask = r.pattern ↔ ∃ i, decodeHalf h = some i ∧ rowOf i = r

/-- R75: which values written to `CMD` are illegal, and that each is refused with `ILLCMD` and nothing else. -/
def Obligations.IllegalWordsAreExactlyThoseOfNoRow : Prop :=
  (∀ w : Word, (∃ why, decode w = .illegal why) ↔
    (w.extractLsb' 16 16 ≠ 0#16 ∨ ∀ r ∈ opcodeMap, w.extractLsb' 0 16 &&& r.mask ≠ r.pattern)) ∧
  (∀ w : Word, w.extractLsb' 16 16 = 0#16 →
    (((w.extractLsb' 12 4).toNat = 0 ∨ 8 ≤ (w.extractLsb' 12 4).toNat) ↔ decode w = .illegal .undefinedOp)) ∧
  (∀ (w : Word) (why : IllegalWord) (s : State), decode w = .illegal why →
    perform (.write 0#4 w) s = .next { s with status := { s.status with illcmd := true } })

/-- The words of the assembler table of R77, one or more of each command. -/
def Obligations.AssemblerWordsDecode : Prop :=
  decode 0x1000#32 = .command .init ∧ decode 0x2000#32 = .command (.config .ch0) ∧
  decode 0x2800#32 = .command (.config .ch1) ∧ decode 0x33FF#32 = .command (.smooth 1023#10) ∧
  decode 0x4000#32 = .command .estim ∧ decode 0x5000#32 = .command (.interp .ch0) ∧
  decode 0x5800#32 = .command (.interp .ch1) ∧ decode 0x600A#32 = .command (.setduty .ch0 10#7) ∧
  decode 0x687F#32 = .command (.setduty .ch1 127#7) ∧ decode 0x7000#32 = .command .tick ∧
  decode 0x00017000#32 = .illegal .upperHalf ∧ decode 0x0000#32 = .illegal .undefinedOp ∧
  decode 0x2400#32 = .illegal .unusedField

/-- A step whose next access is a write of a decodable word to `CMD` is `exec` of that command, on the state in which the
port has accepted the access (R53, R70, R79). -/
def Obligations.StepRunsTheDecodedCommand : Prop :=
  ∀ (s : State) (rest : List HostAccess) (w : Word) (i : Instr),
    s.pending = .write 0#4 w :: rest → decode w = .command i → step s = exec i { s with pending := rest }

/-- A step performs exactly the oldest access, and with none waiting the CORE holds its state (R62, R181; the list of
waiting accesses is log entry 7). -/
def Obligations.StepPerformsTheOldestAccess : Prop :=
  ∀ s : State, (s.pending = [] → step s = .next s) ∧
    ∀ a rest, s.pending = a :: rest → step s = perform a { s with pending := rest }

/-- R76: for each command, the state and channel conditions that make it illegal, and that it is then refused with `ILLCMD`
and nothing else changes; channel `ch` is active when bit `ch` of the parameter `ACTIVE` is set (R9, R15). (That a legal command has its effect: the statements about R92, R101, R111, R136, R138, R151,
R152.) -/
def Obligations.CommandsAreRefusedByStateAndChannel : Prop :=
  ∀ (s refused : State), refused = { s with status := { s.status with illcmd := true } } →
    (s.status.run = true → exec .init s = .next refused ∧ ∀ c, exec (.config c) s = .next refused) ∧
    (s.status.run = false → exec .estim s = .next refused ∧ exec .tick s = .next refused ∧
      (∀ raw, exec (.smooth raw) s = .next refused) ∧
      ∀ c, exec (.interp c) s = .next refused ∧ ∀ pct, exec (.setduty c pct) s = .next refused) ∧
    (∀ c, s.active c = match c with
      | .ch0 => s.params.data.active.getLsbD 0
      | .ch1 => s.params.data.active.getLsbD 1) ∧
    ∀ c, s.active c = false → exec (.config c) s = .next refused ∧ exec (.interp c) s = .next refused ∧
      ∀ pct, exec (.setduty c pct) s = .next refused

/-- R166: when the upper half is nonzero (a), the low half hits no row (b), the command is not legal in the `RUN` state (c) or
its channel is inactive (d), a `CMD` write sets `ILLCMD` and does nothing else; in every other case it leaves `ILLCMD` alone. -/
def Obligations.IllcmdIsSetExactlyByItsFourCauses : Prop :=
  ∀ (s : State) (w : Word) (cause : Prop),
    (cause ↔
      (w.extractLsb' 16 16 ≠ 0#16 ∨ (∀ r ∈ opcodeMap, w.extractLsb' 0 16 &&& r.mask ≠ r.pattern) ∨
        ∃ i, decode w = .command i ∧
          ((s.status.run = true ∧ (i = .init ∨ ∃ c, i = .config c)) ∨
            (s.status.run = false ∧ i ≠ .init ∧ ∀ c, i ≠ .config c) ∨
            ∃ c, s.active c = false ∧ (i = .config c ∨ i = .interp c ∨ ∃ pct, i = .setduty c pct)))) →
    (cause → perform (.write 0#4 w) s = .next { s with status := { s.status with illcmd := true } }) ∧
    (¬cause → ∃ t, perform (.write 0#4 w) s = .next t ∧ t.status.illcmd = s.status.illcmd)

/-- R167: a legal `SETDUTY` above 100 percent sets `PCTERR` and nothing else, and no other step sets it. -/
def Obligations.PcterrIsSetExactlyByAnExcessivePercentage : Prop :=
  (∀ (s : State) (c : Ch) (pct : Percent), s.status.run = true → s.active c = true → 100 < pct.toNat →
    exec (.setduty c pct) s = .next { s with status := { s.status with pcterr := true } }) ∧
  ∀ s t : State, step s = .next t → s.status.pcterr = false → t.status.pcterr = true →
    ∃ w rest c pct, s.pending = .write 0#4 w :: rest ∧ decode w = .command (.setduty c pct) ∧ 100 < pct.toNat ∧
      s.status.run = true ∧ s.active c = true

/-- R111: `SMOOTH #raw`, its word, its refusal and its effect, which writes `AVG` only; and the corner cases it lists. -/
def Obligations.SmoothWritesTheNewAverage : Prop :=
  ∀ (raw : RawSample) (s : State),
    decode (BitVec.ofNat 32 (0x3000 + raw.toNat)) = .command (.smooth raw) ∧
    (s.status.run = true → exec (.smooth raw) s = .next { s with avg := smooth s.avg raw }) ∧
    (s.status.run = false → exec (.smooth raw) s = .next { s with status := { s.status with illcmd := true } }) ∧
    smooth 0#32 0#10 = 0#32 ∧ smooth 4190208#32 1023#10 = 4190208#32 ∧ smooth 4190208#32 0#10 = 3352371#32 ∧
    smooth 0#32 1023#10 = 837837#32 ∧ smooth 1#32 0#10 = 0#32 ∧ smooth 4095#32 0#10 = 3276#32 ∧
    smooth 0#32 1#10 = 819#32 ∧ smooth 2097152#32 1023#10 = 2515661#32

/-- R112: the smoothing function, on every word, and that rounding the first product alone or the exact sum once makes no
difference. -/
def Obligations.SmoothIsTheConvexCombinationRoundedDown : Prop :=
  ∀ (a : Word) (r : RawSample),
    smooth a r = BitVec.ofInt 32 ((a.toInt * 3277) >>> (12 : Nat) + r.toNat * 819) ∧
    smooth a r = BitVec.ofInt 32 ((a.toInt * 3277 + (r.toNat : Int) * 4096 * 819) >>> (12 : Nat))

/-- R113: the average stays in range and within the two inputs up to one floor, the word never wraps, and no step takes
`AVG` out of range. -/
def Obligations.SmoothingKeepsTheAverageInRange : Prop :=
  (∀ (a : Word) (r : RawSample), a.toNat ≤ 4190208 →
    (smooth a r).toNat = a.toNat * 3277 / 4096 + r.toNat * 819 ∧ (smooth a r).toNat ≤ 4190208 ∧
    min a.toNat (r.toNat * 4096) ≤ (smooth a r).toNat ∧ (smooth a r).toNat ≤ max a.toNat (r.toNat * 4096)) ∧
  ∀ s t : State, s.avg.toNat ≤ 4190208 → step s = .next t → t.avg.toNat ≤ 4190208

/-- R114: one step of the error under a constant input, its magnitude from below, where it shrinks and where it stays, that
the average reaches the input from above and comes within 5 raw units of it from below, the fixed point, and the numbers
the rule gives. -/
def Obligations.SmoothingConvergesToTheQuantizationFloor : Prop :=
  (∀ (a : Word) (r : RawSample), a.toNat ≤ 4190208 →
    ((smooth a r).toNat : Int) - r.toNat * 4096 = ((a.toNat : Int) - r.toNat * 4096) * 3277 / 4096) ∧
  (∀ e : Int, 0 < e → 0 ≤ e * 3277 / 4096 ∧ e * 3277 / 4096 < e) ∧
  (∀ e : Int, e ≤ -6 → e < e * 3277 / 4096 ∧ e * 3277 / 4096 ≤ -5) ∧
  (∀ e : Int, -5 ≤ e → e ≤ 0 → e * 3277 / 4096 = e) ∧
  (∀ e : Int, e < 0 → -(e * 3277 / 4096) = (-e * 3277 + 4095) / 4096) ∧
  (∀ r : RawSample, smooth (BitVec.ofNat 32 (r.toNat * 4096)) r = BitVec.ofNat 32 (r.toNat * 4096)) ∧
  (∀ (a : Word) (r : RawSample), a.toNat ≤ 4190208 → r.toNat * 4096 ≤ a.toNat →
    ∃ n, ((fun x => smooth x r)^[n] a).toNat = r.toNat * 4096) ∧
  (∀ (a : Word) (r : RawSample), a.toNat < r.toNat * 4096 →
    ∃ n, ∀ m, n ≤ m → r.toNat * 4096 ≤ ((fun x => smooth x r)^[m] a).toNat + 5 ∧
      ((fun x => smooth x r)^[m] a).toNat ≤ r.toNat * 4096) ∧
  ((fun x => smooth x 1023#10)^[50] 0x00200000#32).toNat = 4190175 ∧
  (∃ n, (fun x => smooth x 1023#10)^[n] 0x00200000#32 = 4190203#32) ∧ smooth 4190203#32 1023#10 = 4190203#32

/-- R101: `ESTIM`, its word, its refusal and its effect, which writes `TEMP` only; the corner cases it lists, and the 19 raw
words that give exactly 25. -/
def Obligations.EstimWritesTheTemperature : Prop :=
  decode 0x4000#32 = .command .estim ∧
  (∀ s : State, (s.status.run = true → exec .estim s = .next { s with temp := .value (estimate s.avg) }) ∧
    (s.status.run = false → exec .estim s = .next { s with status := { s.status with illcmd := true } })) ∧
  estimate 2088950#32 = 102399#32 ∧ estimate 2088970#32 = 102401#32 ∧ estimate 2097152#32 = 103219#32 ∧
  ∀ a : Word, a.toNat ≤ 4190208 → (estimate a = 102400#32 ↔ 2088951 ≤ a.toNat ∧ a.toNat ≤ 2088969)

/-- R102: both closed forms of the estimate for an average in range. The first clause fixes the estimate on every word, also
outside that range: subtraction and addition `mod 2^32`, the difference reread as two's complement before the division, which
is log entry 13 (DEDUCED from R13, R16 and R103). -/
def Obligations.EstimateIsTheLinearFormula : Prop :=
  (∀ a : Word, estimate a = BitVec.ofInt 32 ((2088960#32 - a).toInt.tdiv (-10)) + 102400#32) ∧
  ∀ a : Word, a.toNat ≤ 4190208 →
    (estimate a).toInt = ((2088960 : Int) - a.toNat).tdiv (-10) + 102400 ∧
    (estimate a).toInt = 102400 + ((a.toNat : Int) - 2088960).tdiv 10

/-- R103: range, sign and landmarks of the estimate. The last clause gives every word, also outside the range, its estimate
`mod 2^32`; that the difference is reread as two's complement before the division is log entry 13 (DEDUCED from R13 and
R16). -/
def Obligations.EstimateRangeSignAndLandmarks : Prop :=
  (∀ a : Word, a.toNat ≤ 4190208 →
    -106496 ≤ (estimate a).toInt ∧ (estimate a).toInt ≤ 312524 ∧
    ((estimate a).toInt < 0 ↔ a.toNat ≤ 1064950) ∧ (fxInt (estimate a) < 0 ↔ a.toNat ≤ 1064950) ∧
    (1064951 ≤ a.toNat → a.toNat ≤ 1064960 → (estimate a).toInt = 0)) ∧
  (estimate 0#32).toInt = -106496 ∧ (estimate 4190208#32).toInt = 312524 ∧ (estimate 1064960#32).toInt = 0 ∧
  (estimate 2088960#32).toInt = 102400 ∧ (estimate 2097152#32).toInt = 103219 ∧ (estimate 3112960#32).toInt = 204800 ∧
  ∀ a : Word, estimate a = BitVec.ofInt 32 ((2088960#32 - a).toInt.tdiv (-10)) + 102400#32

/-- R92 with a temperature to read: `INTERP ch`, its words, its refusal and its effect, which writes `DUTY[ch]` only, from the
channel's own curve, `CURVE[0]` or `CURVE[1]` (R55). The case of R30 (b), `TEMP` holding no value, is the next statement. -/
def Obligations.InterpWritesTheInterpolatedDuty : Prop :=
  decode 0x5000#32 = .command (.interp .ch0) ∧ decode 0x5800#32 = .command (.interp .ch1) ∧
  ∀ (s : State) (c : Ch),
    (∀ w, s.status.run = true → s.active c = true → s.temp = .value w →
      exec (.interp c) s =
        .next (s.setChan c { s.chan c with
          duty := .value (interp (match c with
            | .ch0 => s.params.data.curve0
            | .ch1 => s.params.data.curve1) (w.toInt >>> (12 : Nat))) })) ∧
    (s.status.run = false ∨ s.active c = false →
      exec (.interp c) s = .next { s with status := { s.status with illcmd := true } })

/-- R30 (b), R192: `INTERP` while `TEMP` holds no value writes an unspecified duty. That it is at most 100 (R23) and that one
free value is counted is the model's choice (log entries 3 and 5). -/
def Obligations.InterpWithoutTemperatureWritesAFreeDuty : Prop :=
  ∀ (s : State) (c : Ch), s.status.run = true → s.active c = true → s.temp = .noValue →
    ∃ d : Percent, d.toNat ≤ 100 ∧
      exec (.interp c) s =
        .next (({ s with draws := s.draws + 1 } : State).setChan c { s.chan c with duty := .value d })

/-- R93, in the rule's own terms of the smallest index whose temperature strictly exceeds `t`, for every table. -/
def Obligations.InterpFollowsTheIndexScan : Prop :=
  ∀ (curve : List Breakpoint) (t : Int),
    ((∀ r ∈ curve, r.t.toInt ≤ t) → interp curve t = 100#7) ∧
    (∀ first rest, curve = first :: rest → t < first.t.toInt → interp curve t = first.d) ∧
    ∀ (before after : List Breakpoint) (lo hi : Breakpoint), curve = before ++ lo :: hi :: after →
      (∀ r ∈ before ++ [lo], r.t.toInt ≤ t) → t < hi.t.toInt →
      interp curve t =
        BitVec.ofInt 7 (((lo.d.toNat : Int) * (hi.t.toInt - t) + (hi.d.toNat : Int) * (t - lo.t.toInt)).tdiv
          (hi.t.toInt - lo.t.toInt))

/-- R95: the interpolated duty is a percentage, for a table satisfying R91 (a), (b), (c); between two rows it lies between
their duties. -/
def Obligations.InterpIsAPercentage : Prop :=
  ∀ (curve : List Breakpoint) (t : Int), curveLengthOk curve = true → curveTempsRise curve = true →
    curveDutiesInRange curve = true → (interp curve t).toNat ≤ 100 ∧
    ∀ lo hi : Breakpoint, [lo, hi] <:+: curve → lo.t.toInt ≤ t → t < hi.t.toInt →
      min lo.d.toNat hi.d.toNat ≤ (interp curve t).toNat ∧ (interp curve t).toNat ≤ max lo.d.toNat hi.d.toNat

/-- R97: the temperature the datapath supplies is a signed 20-bit number, and in the interpolating branch the differences
and the numerator fit and the 7-bit result loses nothing. -/
def Obligations.InterpFitsItsDatapath : Prop :=
  (∀ w : Word, -524288 ≤ fxInt w ∧ fxInt w ≤ 524287) ∧
  ∀ (lo hi : Breakpoint) (t num : Int), lo.d.toNat ≤ 100 → hi.d.toNat ≤ 100 → lo.t.toInt ≤ t → t < hi.t.toInt →
    num = (lo.d.toNat : Int) * (hi.t.toInt - t) + (hi.d.toNat : Int) * (t - lo.t.toInt) →
    0 ≤ hi.t.toInt - t ∧ 0 ≤ t - lo.t.toInt ∧ hi.t.toInt - lo.t.toInt ≤ 65535 ∧ 0 ≤ num ∧ num ≤ 6553500 ∧
    ((interpBetween lo hi t).toNat : Int) = num / (hi.t.toInt - lo.t.toInt)

/-- R96: the three testable properties and the exact value at a breakpoint, for every well-formed table. -/
def Obligations.InterpIsMonotoneWithFloorAndCeiling : Prop :=
  ∀ curve : List Breakpoint, curveWf curve = true →
    (∀ last t, curve.getLast? = some last → last.t.toInt ≤ t → interp curve t = 100#7) ∧
    (∀ first t, curve.head? = some first → t ≤ first.t.toInt → interp curve t = first.d) ∧
    (∀ t u : Int, t ≤ u → (interp curve t).toNat ≤ (interp curve u).toNat) ∧
    ∀ (i : Nat) (r : Breakpoint), i + 1 < curve.length → curve[i]? = some r → interp curve r.t.toInt = r.d

/-- R122: the walk gives the smallest prescaler that strictly exceeds `approx`, else the largest, with its index; the two
ordered sets (R8), and the table of R122, what each gives on each interval of `approx`. -/
def Obligations.SelectPicksTheFirstExceedingPrescaler : Prop :=
  prescalers .familyA = [1, 8, 64, 256, 1024] ∧ prescalers .familyB = [1, 8, 32, 64, 128, 256, 1024] ∧
  (∀ (cpuHz targetHz : Word) (approx : Nat), approx = cpuHz.toNat / targetHz.toNat / 510 →
    ((select cpuHz targetHz .familyA).div, (select cpuHz targetHz .familyA).pidx) =
      (if approx < 1 then (1, 0) else if approx < 8 then (8, 1) else if approx < 64 then (64, 2)
        else if approx < 256 then (256, 3) else (1024, 4)) ∧
    ((select cpuHz targetHz .familyB).div, (select cpuHz targetHz .familyB).pidx) =
      (if approx < 1 then (1, 0) else if approx < 8 then (8, 1) else if approx < 32 then (32, 2)
        else if approx < 64 then (64, 3) else if approx < 128 then (128, 4) else if approx < 256 then (256, 5)
        else (1024, 6))) ∧
  ∀ (cpuHz targetHz : Word) (f : Family) (approx : Nat), approx = cpuHz.toNat / targetHz.toNat / 510 →
    (prescalers f)[(select cpuHz targetHz f).pidx]? = some (select cpuHz targetHz f).div ∧
    (∀ j p, j < (select cpuHz targetHz f).pidx → (prescalers f)[j]? = some p → p ≤ approx) ∧
    (approx < 1024 → approx < (select cpuHz targetHz f).div) ∧
    (1024 ≤ approx → (select cpuHz targetHz f).div = 1024 ∧
      (select cpuHz targetHz f).pidx + 1 = (prescalers f).length)

/-- R121: the range estimate, whatever the grouping of its divisions, and its widths; and the computation of TOP of R124, also
whatever the grouping, with its low 8 bits. What goes into `TPRESC[ch]` holds `DIV` and `PIDX` whole (R123). -/
def Obligations.SelectComputesRangeAndTop : Prop :=
  ∀ (cpuHz targetHz : Word) (f : Family),
    rangeQuotient cpuHz targetHz = cpuHz.toNat / targetHz.toNat ∧
    approxRange cpuHz targetHz = cpuHz.toNat / targetHz.toNat / 510 ∧
    approxRange cpuHz targetHz = cpuHz.toNat / (targetHz.toNat * 510) ∧
    rangeQuotient cpuHz targetHz < 2 ^ 32 ∧ approxRange cpuHz targetHz < 2 ^ 24 ∧
    (select cpuHz targetHz f).topFull = cpuHz.toNat / targetHz.toNat / (select cpuHz targetHz f).div / 2 ∧
    (select cpuHz targetHz f).topFull =
      cpuHz.toNat / (targetHz.toNat * (select cpuHz targetHz f).div * 2) ∧
    (select cpuHz targetHz f).top.toNat = (select cpuHz targetHz f).topFull % 256 ∧
    (select cpuHz targetHz f).presc.div.toNat = (select cpuHz targetHz f).div ∧
    (select cpuHz targetHz f).presc.pidx.toNat = (select cpuHz targetHz f).pidx

/-- R125: without the fallback TOP fits in 8 bits and is at most 254, the fallback gives at least 255, and it overflows
exactly from a quotient of 524288 on. -/
def Obligations.SelectOverflowsExactlyFromTheBound : Prop :=
  ∀ (cpuHz targetHz : Word) (f : Family) (q0 : Nat), q0 = cpuHz.toNat / targetHz.toNat →
    (q0 / 510 < 1024 → (select cpuHz targetHz f).topFull ≤ 254 ∧
      (select cpuHz targetHz f).top.toNat = (select cpuHz targetHz f).topFull) ∧
    (1024 ≤ q0 / 510 → 255 ≤ (select cpuHz targetHz f).topFull) ∧
    ((select cpuHz targetHz f).topFull = 255 ↔ q0 / 1024 = 510 ∨ q0 / 1024 = 511) ∧
    (255 < (select cpuHz targetHz f).topFull ↔ 524288 ≤ q0)

/-- R136: `CONFIG ch`, its words, its refusal and its whole effect: three timer writes in their order with the registers
that mirror them, and `TOPOVF[ch]` when TOP does not fit. What is selected is selected from the channel's own set, `PSET[0]` or
`PSET[1]`, and `TPRESC[ch]` is `PIDX` and `DIV` as numbers (R123). -/
def Obligations.ConfigProgramsTheChannel : Prop :=
  decode 0x2000#32 = .command (.config .ch0) ∧ decode 0x2800#32 = .command (.config .ch1) ∧
  ∀ (s : State) (c : Ch) (x : Selection) (presc : Presc),
    (x = select s.params.data.cpuHz s.params.data.targetHz (match c with
      | .ch0 => s.params.data.pset0
      | .ch1 => s.params.data.pset1)) →
    presc.pidx.toNat = x.pidx → presc.div.toNat = x.div →
    (s.status.run = false → s.active c = true →
      exec (.config c) s = .next (({ s with
        status := s.status.noteTopovf c (decide (255 < x.topFull)),
        events := s.events ++ [⟨c, .mode 1#1⟩, ⟨c, .presc presc⟩, ⟨c, .top (BitVec.ofNat 8 x.topFull)⟩] } :
          State).setChan c
        { s.chan c with tmode := 1#1, tpresc := .value presc, ttop := .value (BitVec.ofNat 8 x.topFull) })) ∧
    (s.status.run = true ∨ s.active c = false →
      exec (.config c) s = .next { s with status := { s.status with illcmd := true } })

/-- R137: the product, of at most 25500, before the division, never more than `top` for a percentage, its end values, that
it grows with both arguments, and the source's three examples. -/
def Obligations.DutyTicksScalesThePercentage : Prop :=
  dutyTicks 100#8 50#7 = 50#8 ∧ dutyTicks 255#8 100#7 = 255#8 ∧ dutyTicks 3#8 50#7 = 1#8 ∧ ∀ (top : BitVec 8) (pct : Percent), pct.toNat ≤ 100 →
    top.toNat * pct.toNat ≤ 25500 ∧ (dutyTicks top pct).toNat = top.toNat * pct.toNat / 100 ∧ (dutyTicks top pct).toNat ≤ top.toNat ∧
    dutyTicks top 0#7 = 0#8 ∧ dutyTicks top 100#7 = top ∧ dutyTicks 0#8 pct = 0#8 ∧
    (∀ pct' : Percent, pct.toNat ≤ pct'.toNat → pct'.toNat ≤ 100 →
      (dutyTicks top pct).toNat ≤ (dutyTicks top pct').toNat) ∧
    ∀ top' : BitVec 8, top.toNat ≤ top'.toNat → (dutyTicks top pct).toNat ≤ (dutyTicks top' pct).toNat

/-- R138: `SETDUTY ch, #pct`, its word, its two refusals in their order and its whole effect: one timer write, also when the
value does not change, and `TCMP[ch]`. -/
def Obligations.SetdutyDrivesTheCompareValue : Prop :=
  ∀ (s : State) (c : Ch) (pct : Percent),
    decode (BitVec.ofNat 32 (0x6000 + (match c with | .ch0 => 0 | .ch1 => 0x800) + pct.toNat)) =
      .command (.setduty c pct) ∧
    (∀ v ticks, s.status.run = true → s.active c = true → (s.chan c).ttop = .value v → pct.toNat ≤ 100 →
      ticks = BitVec.ofNat 8 (v.toNat * pct.toNat / 100) →
      exec (.setduty c pct) s = .next
        (({ s with events := s.events ++ [⟨c, .cmp ticks⟩] } : State).setChan c { s.chan c with tcmp := .value ticks })) ∧
    (s.status.run = true → s.active c = true → 100 < pct.toNat →
      exec (.setduty c pct) s = .next { s with status := { s.status with pcterr := true } }) ∧
    (s.status.run = false ∨ s.active c = false →
      exec (.setduty c pct) s = .next { s with status := { s.status with illcmd := true } })

/-- R30 (b): a set-duty never reads a `TTOP[ch]` that holds no value. In every state of the invariant (which holds at reset and
which every step keeps, the statements on `State.inv` below), in Running, `TTOP[ch]` of an active channel holds what `INIT` wrote,
the TOP selected from the channel's own set; `SETDUTY` computes with it, and neither `SETDUTY` nor `TICK` draws a free value. The
last clause is over every state, the invariant or not: `SETDUTY` completes with the compare value of some TOP, which is `TTOP[ch]`
if that holds a value, and otherwise the model's free TOP, which is counted (log entries 4 and 5). -/
def Obligations.SetdutyAndTickNeverReadAMissingTop : Prop :=
  (∀ s : State, s.inv = true → s.status.run = true →
    (∃ t, exec .tick s = .next t ∧ t.draws = s.draws) ∧
    ∀ (c : Ch) (top : BitVec 8), s.active c = true →
      (top = BitVec.ofNat 8 (select s.params.data.cpuHz s.params.data.targetHz (match c with
        | .ch0 => s.params.data.pset0
        | .ch1 => s.params.data.pset1)).topFull) →
      (s.chan c).ttop = .value top ∧
      ∀ pct : Percent, ∃ t, exec (.setduty c pct) s = .next t ∧ t.draws = s.draws ∧
        (pct.toNat ≤ 100 → (t.chan c).tcmp = .value (BitVec.ofNat 8 (top.toNat * pct.toNat / 100)))) ∧
  ∀ (s : State) (c : Ch) (pct : Percent), s.status.run = true → s.active c = true → pct.toNat ≤ 100 →
    ∃ (top ticks : BitVec 8) (n : Nat), (∀ v, (s.chan c).ttop = .value v → top = v ∧ n = s.draws) ∧
      ((s.chan c).ttop = .noValue → n = s.draws + 1) ∧ ticks = BitVec.ofNat 8 (top.toNat * pct.toNat / 100) ∧
      exec (.setduty c pct) s = .next
        (({ s with events := s.events ++ [⟨c, .cmp ticks⟩], draws := n } : State).setChan c
          { s.chan c with tcmp := .value ticks })

/-- R151: `INIT`, its word, its refusal and its whole effect: the active channels configured, 0 before 1, the smoother
loaded, Running entered, nothing else changed. Each channel is configured from its own set, `PSET[0]` or `PSET[1]`, and
`TPRESC[ch]` is `PIDX` and `DIV` as numbers (R123). -/
def Obligations.InitConfiguresActiveChannelsAndRuns : Prop :=
  decode 0x1000#32 = .command .init ∧
  ∀ (s : State) (sel : Ch → Selection) (presc : Ch → Presc) (evs : Ch → List TimerEvent) (regs : Ch → Channel),
    sel .ch0 = select s.params.data.cpuHz s.params.data.targetHz s.params.data.pset0 →
    sel .ch1 = select s.params.data.cpuHz s.params.data.targetHz s.params.data.pset1 →
    (∀ c, (presc c).pidx.toNat = (sel c).pidx ∧ (presc c).div.toNat = (sel c).div) →
    (∀ c, evs c = if s.active c then
        [⟨c, .mode 1#1⟩, ⟨c, .presc (presc c)⟩, ⟨c, .top (BitVec.ofNat 8 (sel c).topFull)⟩] else []) →
    (∀ c, regs c = if s.active c then { s.chan c with
        tmode := 1#1, tpresc := .value (presc c), ttop := .value (BitVec.ofNat 8 (sel c).topFull) } else s.chan c) →
    (s.status.run = false → exec .init s = .next { s with
      avg := 0x00200000#32, ch0 := regs .ch0, ch1 := regs .ch1, events := s.events ++ evs .ch0 ++ evs .ch1,
      status := { s.status with
        run := true,
        topovf0 := s.status.topovf0 || (s.active .ch0 && decide (255 < (sel .ch0).topFull)),
        topovf1 := s.status.topovf1 || (s.active .ch1 && decide (255 < (sel .ch1).topFull)) } }) ∧
    (s.status.run = true → exec .init s = .next { s with status := { s.status with illcmd := true } })

/-- R152: `TICK`, its word, its refusal and its whole effect: the new average, the temperature of it, and for each active
channel the duty interpolated at it and the compare value of that duty, channel 0's event before channel 1's. The
hypothesis on `TTOP` is R151's: `INIT` has written it. Each channel follows its own curve, `CURVE[0]` or `CURVE[1]` (R55). -/
def Obligations.TickRunsTheWholeLoop : Prop :=
  decode 0x7000#32 = .command .tick ∧
  ∀ (s : State) (top : Ch → BitVec 8) (avg temp : Word) (d : Ch → Percent) (ticks : Ch → BitVec 8)
    (evs : Ch → List TimerEvent) (regs : Ch → Channel),
    (∀ c, s.active c = true → (s.chan c).ttop = .value (top c)) →
    avg = smooth s.avg s.rawIn → temp = estimate avg →
    d .ch0 = interp s.params.data.curve0 (temp.toInt >>> (12 : Nat)) →
    d .ch1 = interp s.params.data.curve1 (temp.toInt >>> (12 : Nat)) →
    (∀ c, ticks c = BitVec.ofNat 8 ((top c).toNat * (d c).toNat / 100)) →
    (∀ c, evs c = if s.active c then [⟨c, .cmp (ticks c)⟩] else []) →
    (∀ c, regs c = if s.active c then { s.chan c with duty := .value (d c), tcmp := .value (ticks c) } else s.chan c) →
    (s.status.run = true → exec .tick s = .next { s with
      avg := avg, temp := .value temp, ch0 := regs .ch0, ch1 := regs .ch1,
      events := s.events ++ evs .ch0 ++ evs .ch1 }) ∧
    (s.status.run = false → exec .tick s = .next { s with status := { s.status with illcmd := true } })

/-- R154: with both channels active, `TICK` leaves exactly the state and the events of the six unit commands. -/
def Obligations.TickEqualsTheUnitCommands : Prop :=
  ∀ s : State, s.status.run = true → s.active .ch0 = true → s.active .ch1 = true →
    ∃ s1 s2 s3 s4 s5 s6 d0 d1,
      exec (.smooth s.rawIn) s = .next s1 ∧ exec .estim s1 = .next s2 ∧
      exec (.interp .ch0) s2 = .next s3 ∧ s3.ch0.duty = .value d0 ∧ exec (.setduty .ch0 d0) s3 = .next s4 ∧
      exec (.interp .ch1) s4 = .next s5 ∧ s5.ch1.duty = .value d1 ∧ exec (.setduty .ch1 d1) s5 = .next s6 ∧
      exec .tick s = .next s6

/-- R155: a tick has no memory beyond `AVG`: two Running states with the same average, parameters, sample and TOP registers
leave the same average, temperature, and duty and compare value of each active channel, whatever else differs. -/
def Obligations.TickHasNoMemoryBeyondTheAverage : Prop :=
  ∀ s u s' u' : State, s.status.run = true → u.status.run = true → s.avg = u.avg → s.params = u.params →
    s.rawIn = u.rawIn → (∀ c, s.active c = true → ∃ v, (s.chan c).ttop = .value v ∧ (u.chan c).ttop = .value v) →
    exec .tick s = .next s' → exec .tick u = .next u' →
    s'.avg = u'.avg ∧ s'.temp = u'.temp ∧
    ∀ c, s.active c = true → (s'.chan c).duty = (u'.chan c).duty ∧ (s'.chan c).tcmp = (u'.chan c).tcmp

/-- R57: `raw_in` is read by no command but a legal `TICK`: any other command does the same whatever stands on the port. -/
def Obligations.OnlyTickReadsTheSensor : Prop :=
  ∀ (i : Instr) (s t : State) (raw : RawSample), i ≠ .tick ∨ s.status.run = false → exec i s = .next t →
    exec i { s with rawIn := raw } = .next { t with rawIn := raw }

/-- The invariant of the machine holds right after reset, for any parameters. -/
def Obligations.InvariantHoldsAtReset : Prop :=
  State.reset.inv = true ∧ ∀ (p : Params) (raw : RawSample), (State.resetWith p raw).inv = true

/-- Every step keeps the invariant: `AVG` and `TEMP` in range (R21, R103), duties percentages (R23), compare values within
TOP (R139), inactive channels untouched, active ones configured in Running with what `select` gives (R26 to R28, R30). -/
def Obligations.EveryStepKeepsTheInvariant : Prop :=
  ∀ s t : State, s.inv = true → step s = .next t → t.inv = true

/-- R58: at every moment each adapter register that holds a value equals the last value sent for that field, and that is so
at reset. The event history kept across resets is log entry 9. -/
def Obligations.AdapterRegistersMirrorTheTimerWrites : Prop :=
  State.reset.mirrored = true ∧ ∀ s t : State, s.mirrored = true → step s = .next t → t.mirrored = true

/-- R172: until reset a sticky flag that is set stays set, and none is read: with other flags a command does the same, flags
apart. -/
def Obligations.StickyFlagsStayAndAreNeverRead : Prop :=
  (∀ (s t : State) (i : Instr), exec i s = .next t →
    (s.status.illcmd = true → t.status.illcmd = true) ∧ (s.status.pcterr = true → t.status.pcterr = true) ∧
    ∀ c, s.status.topovf c = true → t.status.topovf c = true) ∧
  (∀ s t : State, step s = .next t →
    (∃ rest, s.pending = .reset :: rest ∨ ∃ idx w, s.pending = .writeAborted idx w :: rest) ∨
    ((s.status.illcmd = true → t.status.illcmd = true) ∧ (s.status.pcterr = true → t.status.pcterr = true) ∧
      ∀ c, s.status.topovf c = true → t.status.topovf c = true)) ∧
  ∀ (s t : State) (i : Instr) (f : Status), f.run = s.status.run → exec i s = .next t →
    ∃ f', exec i { s with status := f } = .next { t with status := f' } ∧ f'.run = t.status.run

/-- R24: `RUN` goes from 0 to 1 by `INIT` only, and from 1 to 0 by reset only. -/
def Obligations.OnlyInitEntersRunningAndOnlyResetLeaves : Prop :=
  ∀ s t : State, step s = .next t →
    (s.status.run = false → t.status.run = true →
      ∃ w rest, s.pending = .write 0#4 w :: rest ∧ decode w = .command .init) ∧
    (s.status.run = true → t.status.run = false →
      ∃ rest, s.pending = .reset :: rest ∨ ∃ idx w, s.pending = .writeAborted idx w :: rest)

/-- R28, R194: once `RUN = 1` no command changes the setup of a channel: mode, prescaler and TOP. -/
def Obligations.SetupIsImmutableInRunning : Prop :=
  ∀ (i : Instr) (s t : State), s.status.run = true → exec i s = .next t →
    ∀ c, (t.chan c).tmode = (s.chan c).tmode ∧ (t.chan c).tpresc = (s.chan c).tpresc ∧
      (t.chan c).ttop = (s.chan c).ttop

/-- R140: `configure(ch)` and `set_duty(ch, ...)`, and with them `CONFIG` and `SETDUTY`, touch only the registers and the timer
port of channel `ch`: the other channel's registers and overflow flag and every register common to both stay, and every
event they emit is on `ch`'s port. -/
def Obligations.ChannelCommandsTouchOnlyTheirChannel : Prop :=
  ∀ (s t : State) (c other : Ch) (pct : Percent), other ≠ c →
    (exec (.config c) s = .next t ∨ exec (.setduty c pct) s = .next t ∨ t = configure c s ∨ t = setDuty c pct s) →
    t.chan other = s.chan other ∧ t.status.topovf other = s.status.topovf other ∧ t.avg = s.avg ∧ t.temp = s.temp ∧
    t.status.run = s.status.run ∧ ∃ new, t.events = s.events ++ new ∧ ∀ e ∈ new, e.ch = c

/-- The "written by" column of 10_state.md section 1 (R20): each register is written only by the commands named there. -/
def Obligations.RegistersAreWrittenOnlyByTheirCommands : Prop :=
  ∀ (i : Instr) (s t : State), exec i s = .next t →
    (t.avg ≠ s.avg → i = .init ∨ (∃ raw, i = .smooth raw) ∨ i = .tick) ∧
    (t.temp ≠ s.temp → i = .estim ∨ i = .tick) ∧
    ∀ c, ((t.chan c).duty ≠ (s.chan c).duty → i = .interp c ∨ i = .tick) ∧
      ((t.chan c).tmode ≠ (s.chan c).tmode ∨ (t.chan c).tpresc ≠ (s.chan c).tpresc ∨
        (t.chan c).ttop ≠ (s.chan c).ttop → i = .config c ∨ i = .init) ∧
      ((t.chan c).tcmp ≠ (s.chan c).tcmp → (∃ pct, i = .setduty c pct) ∨ i = .tick)

/-- R51: the register map, index by index, as the host reads it; `CMD` and the reserved indices read 0 (R52, R54). -/
def Obligations.RegisterMapReadsTheRegisters : Prop :=
  ∀ s : State,
    s.register 0x0#4 = .value 0#32 ∧ s.register 0x1#4 = .value s.status.word ∧ s.register 0x2#4 = .value s.avg ∧
    s.register 0x3#4 = s.temp ∧ s.register 0x6#4 = .value 0#32 ∧ s.register 0x7#4 = .value 0#32 ∧
    ∀ (c : Ch) (k : Nat), k = (match c with | .ch0 => 0 | .ch1 => 1) →
      (s.register (BitVec.ofNat 4 (8 + 4 * k)) = .value ((s.chan c).tmode.setWidth 32)) ∧
      (∀ v, (s.chan c).duty = .value v → s.register (BitVec.ofNat 4 (4 + k)) = .value (v.setWidth 32)) ∧
      (∀ v, (s.chan c).tpresc = .value v →
        s.register (BitVec.ofNat 4 (9 + 4 * k)) = .value (BitVec.ofNat 32 (v.pidx.toNat * 4096 + v.div.toNat))) ∧
      (∀ v, (s.chan c).ttop = .value v → s.register (BitVec.ofNat 4 (10 + 4 * k)) = .value (v.setWidth 32)) ∧
      (∀ v, (s.chan c).tcmp = .value v → s.register (BitVec.ofNat 4 (11 + 4 * k)) = .value (v.setWidth 32)) ∧
      ((s.chan c).duty = .noValue → s.register (BitVec.ofNat 4 (4 + k)) = .noValue) ∧
      ((s.chan c).tpresc = .noValue → s.register (BitVec.ofNat 4 (9 + 4 * k)) = .noValue) ∧
      ((s.chan c).ttop = .noValue → s.register (BitVec.ofNat 4 (10 + 4 * k)) = .noValue) ∧
      ((s.chan c).tcmp = .noValue → s.register (BitVec.ofNat 4 (11 + 4 * k)) = .noValue)

/-- R52: a read returns the register's word and changes no register; one holding no value returns some word (R30 (a)). That
the word returned is kept in a list and that a free value is counted is the model's (log entries 2, 5, 9). -/
def Obligations.ReadingReturnsTheWordAndChangesNothing : Prop :=
  ∀ (s : State) (idx : BitVec 4),
    (∀ w, s.register idx = .value w → perform (.read idx) s = .next { s with reads := s.reads ++ [⟨idx, w⟩] }) ∧
    (s.register idx = .noValue → ∃ w, perform (.read idx) s =
      .next { s with reads := s.reads ++ [⟨idx, w⟩], draws := s.draws + 1 })

/-- R53: only a write to index 0 does anything: it runs the command of the low half, or is refused with `ILLCMD` when the
upper half is not 0. Nothing else the host does but reset changes a register: a read and a new level on the sensor port
leave them all. -/
def Obligations.OnlyWritesToCmdHaveAnEffect : Prop :=
  ∀ (s : State) (idx : BitVec 4) (w : Word),
    (idx ≠ 0#4 → perform (.write idx w) s = .next s) ∧
    (w.extractLsb' 16 16 ≠ 0#16 →
      perform (.write 0#4 w) s = .next { s with status := { s.status with illcmd := true } }) ∧
    (∀ i, w.extractLsb' 16 16 = 0#16 → decodeHalf (w.extractLsb' 0 16) = some i →
      perform (.write 0#4 w) s = exec i s) ∧
    ∀ (raw : RawSample) (t : State), (perform (.read idx) s = .next t ∨ perform (.present raw) s = .next t) →
      t.avg = s.avg ∧ t.temp = s.temp ∧ t.status = s.status ∧ t.ch0 = s.ch0 ∧ t.ch1 = s.ch1

/-- R25: the place of each bit of `STATUS`, and 0 everywhere else. -/
def Obligations.StatusBitsStandWhereStated : Prop :=
  ∀ (t : Status) (k : Nat), t.word.getLsbD k =
    (if k = 0 then t.run else if k = 4 then t.illcmd else if k = 5 then t.pcterr
      else if k = 6 then t.topovf0 else if k = 7 then t.topovf1 else false)

/-- R170: `fault_out` is the OR of `STATUS[4]` to `STATUS[7]`, it stays high until reset, and the CORE never halts, whatever
the flags. -/
def Obligations.FaultOutIsTheOrOfTheFlags : Prop :=
  (∀ s : State, s.faultOut =
    (s.status.word.getLsbD 4 || s.status.word.getLsbD 5 || s.status.word.getLsbD 6 || s.status.word.getLsbD 7)) ∧
  (∀ s t : State, s.faultOut = true → step s = .next t → t.faultOut = true ∨
    ∃ rest, s.pending = .reset :: rest ∨ ∃ idx w, s.pending = .writeAborted idx w :: rest) ∧
  ∀ s : State, ∃ t, step s = .next t

/-- "every command completes" (R62) and "The CORE itself never halts" (R170): every command in every state, and every step
from every state, answers a next state. -/
def Obligations.EveryCommandAndEveryStepCompletes : Prop :=
  (∀ (i : Instr) (s : State), ∃ t, exec i s = .next t) ∧ ∀ s : State, ∃ t, step s = .next t

/-- R7: no step changes a parameter. -/
def Obligations.ParametersNeverChange : Prop := ∀ s t : State, step s = .next t → t.params = s.params

/-- R65, R59: events are emitted "exactly as rule R59 says, never merged, dropped or repeated". What has been emitted stays, in
its order, and a command adds exactly its own events, each once: a `configure` the three of its channel and a set-duty the one, with
the values the adapter registers then hold, channel 0 before channel 1; every other command, a refused one and every other access
adds none, and no host read emits any. The model's choices: that the history stays across a reset (log entry 9), and that a command
abandoned by reset adds first ones of the events it would have added (log entry 10). -/
def Obligations.EventsAreOnlyAppended : Prop :=
  (∀ s t : State, step s = .next t → ∃ new, t.events = s.events ++ new) ∧
  (∀ (s t : State) (idx : BitVec 4), perform (.read idx) s = .next t → t.events = s.events) ∧
  (∀ (i : Instr) (s t : State) (configured sent : Ch → List TimerEvent), exec i s = .next t →
    (∀ c, s.active c = false → configured c = [] ∧ sent c = []) →
    (∀ c p v, s.active c = true → (t.chan c).tpresc = .value p → (t.chan c).ttop = .value v →
      configured c = [⟨c, .mode 1#1⟩, ⟨c, .presc p⟩, ⟨c, .top v⟩]) →
    (∀ c v, s.active c = true → (t.chan c).tcmp = .value v → sent c = [⟨c, .cmp v⟩]) →
    t.events = s.events ++ match i with
      | .init => if s.status.run then [] else configured .ch0 ++ configured .ch1
      | .config c => if s.status.run then [] else configured c
      | .setduty c pct => if s.status.run && decide (pct.toNat ≤ 100) then sent c else []
      | .tick => if s.status.run then sent .ch0 ++ sent .ch1 else []
      | .smooth _ => []
      | .estim => []
      | .interp _ => []) ∧
  (∀ s t : State, s.pending = [] → step s = .next t → t.events = s.events) ∧
  ∀ (s u t : State) (a : HostAccess) (rest : List HostAccess), s.pending = a :: rest → u = { s with pending := rest } →
    step s = .next t →
    (∀ w i, a = .write 0#4 w → decode w = .command i → exec i u = .next t) ∧
    ((∀ w i, a = .write 0#4 w → decode w ≠ .command i) → (∀ idx w, a ≠ .writeAborted idx w) → t.events = s.events) ∧
    ∀ idx w, a = .writeAborted idx w → ∃ done k, perform (.write idx w) u = .next done ∧
      t.events = s.events ++ (done.events.drop s.events.length).take k

/-- R56: from the moment the sensor port presents a value, that value is what a legal `TICK` samples; nothing else changes until
then. That the level on `raw_in` is a field of State, changed by an access of the host's side, is log entry 8. -/
def Obligations.SensorPortPresentsTheSampleOfTheNextTick : Prop :=
  ∀ (s : State) (raw : RawSample),
    perform (.present raw) s = .next { s with rawIn := raw } ∧
    (s.status.run = true → ∃ t, exec .tick { s with rawIn := raw } = .next t ∧ t.avg = smooth s.avg raw ∧
      t.temp = .value (estimate (smooth s.avg raw)) ∧ t.rawIn = raw)
end

