-- ==== Sys2Proof/Laws/State.lean ====
section
/-! SUPPORT. What each update of the state leaves in each field, one lemma per field per update, so that no proof unfolds a
record update. -/

namespace Sys2Proof.Machine

/-! ### Reading channels and parameters back -/

theorem chan_ch0 (s : State) : s.chan .ch0 = s.ch0 := rfl
theorem chan_ch1 (s : State) : s.chan .ch1 = s.ch1 := rfl
@[simp] theorem setChan_chan (s : State) (c : Ch) : s.setChan c (s.chan c) = s := by cases c <;> rfl
@[simp] theorem setChan_setChan (s : State) (c : Ch) (x y : Channel) : (s.setChan c x).setChan c y = s.setChan c y := by
  cases c <;> rfl

@[simp] theorem mirror_mode (x : Channel) (v : BitVec 1) : x.mirror (.mode v) = { x with tmode := v } := rfl
@[simp] theorem mirror_presc (x : Channel) (v : Presc) : x.mirror (.presc v) = { x with tpresc := .value v } := rfl
@[simp] theorem mirror_top (x : Channel) (v : BitVec 8) : x.mirror (.top v) = { x with ttop := .value v } := rfl
@[simp] theorem mirror_cmp (x : Channel) (v : BitVec 8) : x.mirror (.cmp v) = { x with tcmp := .value v } := rfl

/-- Two states are equal when their fields are, the two channels taken together. -/
theorem state_ext {s t : State} (havg : s.avg = t.avg) (htemp : s.temp = t.temp) (hstatus : s.status = t.status)
    (hchan : ∀ k, s.chan k = t.chan k) (hparams : s.params = t.params) (hraw : s.rawIn = t.rawIn)
    (hpending : s.pending = t.pending) (hevents : s.events = t.events) (hreads : s.reads = t.reads)
    (hdraws : s.draws = t.draws) : s = t := by
  have h0 : s.ch0 = t.ch0 := hchan .ch0
  have h1 : s.ch1 = t.ch1 := hchan .ch1
  clear hchan
  cases s
  cases t
  simp_all

/-! ### flagIllcmd -/

@[simp] theorem flagIllcmd_chan (s : State) (k : Ch) : (s.flagIllcmd).chan k = s.chan k := by cases k <;> rfl
@[simp] theorem flagIllcmd_avg (s : State) : (s.flagIllcmd).avg = s.avg := rfl
@[simp] theorem flagIllcmd_temp (s : State) : (s.flagIllcmd).temp = s.temp := rfl
@[simp] theorem flagIllcmd_status (s : State) : (s.flagIllcmd).status = { s.status with illcmd := true } := rfl
@[simp] theorem flagIllcmd_params (s : State) : (s.flagIllcmd).params = s.params := rfl
@[simp] theorem flagIllcmd_rawIn (s : State) : (s.flagIllcmd).rawIn = s.rawIn := rfl
@[simp] theorem flagIllcmd_pending (s : State) : (s.flagIllcmd).pending = s.pending := rfl
@[simp] theorem flagIllcmd_events (s : State) : (s.flagIllcmd).events = s.events := rfl
@[simp] theorem flagIllcmd_reads (s : State) : (s.flagIllcmd).reads = s.reads := rfl
@[simp] theorem flagIllcmd_draws (s : State) : (s.flagIllcmd).draws = s.draws := rfl
@[simp] theorem flagIllcmd_active (s : State) (k : Ch) : (s.flagIllcmd).active k = s.active k := rfl

/-! ### flagPcterr -/

@[simp] theorem flagPcterr_chan (s : State) (k : Ch) : (s.flagPcterr).chan k = s.chan k := by cases k <;> rfl
@[simp] theorem flagPcterr_avg (s : State) : (s.flagPcterr).avg = s.avg := rfl
@[simp] theorem flagPcterr_temp (s : State) : (s.flagPcterr).temp = s.temp := rfl
@[simp] theorem flagPcterr_status (s : State) : (s.flagPcterr).status = { s.status with pcterr := true } := rfl
@[simp] theorem flagPcterr_params (s : State) : (s.flagPcterr).params = s.params := rfl
@[simp] theorem flagPcterr_rawIn (s : State) : (s.flagPcterr).rawIn = s.rawIn := rfl
@[simp] theorem flagPcterr_pending (s : State) : (s.flagPcterr).pending = s.pending := rfl
@[simp] theorem flagPcterr_events (s : State) : (s.flagPcterr).events = s.events := rfl
@[simp] theorem flagPcterr_reads (s : State) : (s.flagPcterr).reads = s.reads := rfl
@[simp] theorem flagPcterr_draws (s : State) : (s.flagPcterr).draws = s.draws := rfl
@[simp] theorem flagPcterr_active (s : State) (k : Ch) : (s.flagPcterr).active k = s.active k := rfl

/-! ### flagTopovf -/

@[simp] theorem flagTopovf_chan (c : Ch) (b : Bool) (s : State) (k : Ch) : (s.flagTopovf c b).chan k = s.chan k := by cases k <;> rfl
@[simp] theorem flagTopovf_avg (c : Ch) (b : Bool) (s : State) : (s.flagTopovf c b).avg = s.avg := rfl
@[simp] theorem flagTopovf_temp (c : Ch) (b : Bool) (s : State) : (s.flagTopovf c b).temp = s.temp := rfl
@[simp] theorem flagTopovf_status (c : Ch) (b : Bool) (s : State) : (s.flagTopovf c b).status = s.status.noteTopovf c b := rfl
@[simp] theorem flagTopovf_params (c : Ch) (b : Bool) (s : State) : (s.flagTopovf c b).params = s.params := rfl
@[simp] theorem flagTopovf_rawIn (c : Ch) (b : Bool) (s : State) : (s.flagTopovf c b).rawIn = s.rawIn := rfl
@[simp] theorem flagTopovf_pending (c : Ch) (b : Bool) (s : State) : (s.flagTopovf c b).pending = s.pending := rfl
@[simp] theorem flagTopovf_events (c : Ch) (b : Bool) (s : State) : (s.flagTopovf c b).events = s.events := rfl
@[simp] theorem flagTopovf_reads (c : Ch) (b : Bool) (s : State) : (s.flagTopovf c b).reads = s.reads := rfl
@[simp] theorem flagTopovf_draws (c : Ch) (b : Bool) (s : State) : (s.flagTopovf c b).draws = s.draws := rfl
@[simp] theorem flagTopovf_active (c : Ch) (b : Bool) (s : State) (k : Ch) : (s.flagTopovf c b).active k = s.active k := rfl

/-! ### startRun -/

@[simp] theorem startRun_chan (s : State) (k : Ch) : (s.startRun).chan k = s.chan k := by cases k <;> rfl
@[simp] theorem startRun_avg (s : State) : (s.startRun).avg = s.avg := rfl
@[simp] theorem startRun_temp (s : State) : (s.startRun).temp = s.temp := rfl
@[simp] theorem startRun_status (s : State) : (s.startRun).status = { s.status with run := true } := rfl
@[simp] theorem startRun_params (s : State) : (s.startRun).params = s.params := rfl
@[simp] theorem startRun_rawIn (s : State) : (s.startRun).rawIn = s.rawIn := rfl
@[simp] theorem startRun_pending (s : State) : (s.startRun).pending = s.pending := rfl
@[simp] theorem startRun_events (s : State) : (s.startRun).events = s.events := rfl
@[simp] theorem startRun_reads (s : State) : (s.startRun).reads = s.reads := rfl
@[simp] theorem startRun_draws (s : State) : (s.startRun).draws = s.draws := rfl
@[simp] theorem startRun_active (s : State) (k : Ch) : (s.startRun).active k = s.active k := rfl

/-! ### setChan -/

@[simp] theorem setChan_chan_self (c : Ch) (x : Channel) (s : State) : (s.setChan c x).chan c = x := by
  cases c <;> rfl
@[simp] theorem setChan_chan_other (c k : Ch) (x : Channel) (s : State) (h : k ≠ c) :
    (s.setChan c x).chan k = s.chan k := by
  cases c <;> cases k <;> first | rfl | exact absurd rfl h
@[simp] theorem setChan_avg (c : Ch) (x : Channel) (s : State) : (s.setChan c x).avg = s.avg := rfl
@[simp] theorem setChan_temp (c : Ch) (x : Channel) (s : State) : (s.setChan c x).temp = s.temp := rfl
@[simp] theorem setChan_status (c : Ch) (x : Channel) (s : State) : (s.setChan c x).status = s.status := rfl
@[simp] theorem setChan_params (c : Ch) (x : Channel) (s : State) : (s.setChan c x).params = s.params := rfl
@[simp] theorem setChan_rawIn (c : Ch) (x : Channel) (s : State) : (s.setChan c x).rawIn = s.rawIn := rfl
@[simp] theorem setChan_pending (c : Ch) (x : Channel) (s : State) : (s.setChan c x).pending = s.pending := rfl
@[simp] theorem setChan_events (c : Ch) (x : Channel) (s : State) : (s.setChan c x).events = s.events := rfl
@[simp] theorem setChan_reads (c : Ch) (x : Channel) (s : State) : (s.setChan c x).reads = s.reads := rfl
@[simp] theorem setChan_draws (c : Ch) (x : Channel) (s : State) : (s.setChan c x).draws = s.draws := rfl
@[simp] theorem setChan_active (c : Ch) (x : Channel) (s : State) (k : Ch) : (s.setChan c x).active k = s.active k := rfl

/-! ### writeAvg -/

@[simp] theorem writeAvg_chan (v : Word) (s : State) (k : Ch) : (s.writeAvg v).chan k = s.chan k := by cases k <;> rfl
@[simp] theorem writeAvg_avg (v : Word) (s : State) : (s.writeAvg v).avg = v := rfl
@[simp] theorem writeAvg_temp (v : Word) (s : State) : (s.writeAvg v).temp = s.temp := rfl
@[simp] theorem writeAvg_status (v : Word) (s : State) : (s.writeAvg v).status = s.status := rfl
@[simp] theorem writeAvg_params (v : Word) (s : State) : (s.writeAvg v).params = s.params := rfl
@[simp] theorem writeAvg_rawIn (v : Word) (s : State) : (s.writeAvg v).rawIn = s.rawIn := rfl
@[simp] theorem writeAvg_pending (v : Word) (s : State) : (s.writeAvg v).pending = s.pending := rfl
@[simp] theorem writeAvg_events (v : Word) (s : State) : (s.writeAvg v).events = s.events := rfl
@[simp] theorem writeAvg_reads (v : Word) (s : State) : (s.writeAvg v).reads = s.reads := rfl
@[simp] theorem writeAvg_draws (v : Word) (s : State) : (s.writeAvg v).draws = s.draws := rfl
@[simp] theorem writeAvg_active (v : Word) (s : State) (k : Ch) : (s.writeAvg v).active k = s.active k := rfl

/-! ### writeTemp -/

@[simp] theorem writeTemp_chan (v : Word) (s : State) (k : Ch) : (s.writeTemp v).chan k = s.chan k := by cases k <;> rfl
@[simp] theorem writeTemp_avg (v : Word) (s : State) : (s.writeTemp v).avg = s.avg := rfl
@[simp] theorem writeTemp_temp (v : Word) (s : State) : (s.writeTemp v).temp = .value v := rfl
@[simp] theorem writeTemp_status (v : Word) (s : State) : (s.writeTemp v).status = s.status := rfl
@[simp] theorem writeTemp_params (v : Word) (s : State) : (s.writeTemp v).params = s.params := rfl
@[simp] theorem writeTemp_rawIn (v : Word) (s : State) : (s.writeTemp v).rawIn = s.rawIn := rfl
@[simp] theorem writeTemp_pending (v : Word) (s : State) : (s.writeTemp v).pending = s.pending := rfl
@[simp] theorem writeTemp_events (v : Word) (s : State) : (s.writeTemp v).events = s.events := rfl
@[simp] theorem writeTemp_reads (v : Word) (s : State) : (s.writeTemp v).reads = s.reads := rfl
@[simp] theorem writeTemp_draws (v : Word) (s : State) : (s.writeTemp v).draws = s.draws := rfl
@[simp] theorem writeTemp_active (v : Word) (s : State) (k : Ch) : (s.writeTemp v).active k = s.active k := rfl

/-! ### writeDuty -/

@[simp] theorem writeDuty_chan_self (c : Ch) (v : Percent) (s : State) :
    (s.writeDuty c v).chan c = { s.chan c with duty := .value v } := by cases c <;> rfl
@[simp] theorem writeDuty_chan_other (c k : Ch) (v : Percent) (s : State) (h : k ≠ c) :
    (s.writeDuty c v).chan k = s.chan k := by
  cases c <;> cases k <;> first | rfl | exact absurd rfl h
@[simp] theorem writeDuty_avg (c : Ch) (v : Percent) (s : State) : (s.writeDuty c v).avg = s.avg := rfl
@[simp] theorem writeDuty_temp (c : Ch) (v : Percent) (s : State) : (s.writeDuty c v).temp = s.temp := rfl
@[simp] theorem writeDuty_status (c : Ch) (v : Percent) (s : State) : (s.writeDuty c v).status = s.status := rfl
@[simp] theorem writeDuty_params (c : Ch) (v : Percent) (s : State) : (s.writeDuty c v).params = s.params := rfl
@[simp] theorem writeDuty_rawIn (c : Ch) (v : Percent) (s : State) : (s.writeDuty c v).rawIn = s.rawIn := rfl
@[simp] theorem writeDuty_pending (c : Ch) (v : Percent) (s : State) : (s.writeDuty c v).pending = s.pending := rfl
@[simp] theorem writeDuty_events (c : Ch) (v : Percent) (s : State) : (s.writeDuty c v).events = s.events := rfl
@[simp] theorem writeDuty_reads (c : Ch) (v : Percent) (s : State) : (s.writeDuty c v).reads = s.reads := rfl
@[simp] theorem writeDuty_draws (c : Ch) (v : Percent) (s : State) : (s.writeDuty c v).draws = s.draws := rfl
@[simp] theorem writeDuty_active (c : Ch) (v : Percent) (s : State) (k : Ch) : (s.writeDuty c v).active k = s.active k := rfl

/-! ### timerWrite -/

@[simp] theorem timerWrite_chan_self (c : Ch) (f : TimerField) (s : State) :
    (s.timerWrite c f).chan c = (s.chan c).mirror f := by cases c <;> rfl
@[simp] theorem timerWrite_chan_other (c k : Ch) (f : TimerField) (s : State) (h : k ≠ c) :
    (s.timerWrite c f).chan k = s.chan k := by
  cases c <;> cases k <;> first | rfl | exact absurd rfl h
@[simp] theorem timerWrite_avg (c : Ch) (f : TimerField) (s : State) : (s.timerWrite c f).avg = s.avg := rfl
@[simp] theorem timerWrite_temp (c : Ch) (f : TimerField) (s : State) : (s.timerWrite c f).temp = s.temp := rfl
@[simp] theorem timerWrite_status (c : Ch) (f : TimerField) (s : State) : (s.timerWrite c f).status = s.status := rfl
@[simp] theorem timerWrite_params (c : Ch) (f : TimerField) (s : State) : (s.timerWrite c f).params = s.params := rfl
@[simp] theorem timerWrite_rawIn (c : Ch) (f : TimerField) (s : State) : (s.timerWrite c f).rawIn = s.rawIn := rfl
@[simp] theorem timerWrite_pending (c : Ch) (f : TimerField) (s : State) : (s.timerWrite c f).pending = s.pending := rfl
@[simp] theorem timerWrite_events (c : Ch) (f : TimerField) (s : State) : (s.timerWrite c f).events = s.events ++ [⟨c, f⟩] := rfl
@[simp] theorem timerWrite_reads (c : Ch) (f : TimerField) (s : State) : (s.timerWrite c f).reads = s.reads := rfl
@[simp] theorem timerWrite_draws (c : Ch) (f : TimerField) (s : State) : (s.timerWrite c f).draws = s.draws := rfl
@[simp] theorem timerWrite_active (c : Ch) (f : TimerField) (s : State) (k : Ch) : (s.timerWrite c f).active k = s.active k := rfl

/-! ### drawn -/

@[simp] theorem drawn_chan (s : State) (k : Ch) : (s.drawn).chan k = s.chan k := by cases k <;> rfl
@[simp] theorem drawn_avg (s : State) : (s.drawn).avg = s.avg := rfl
@[simp] theorem drawn_temp (s : State) : (s.drawn).temp = s.temp := rfl
@[simp] theorem drawn_status (s : State) : (s.drawn).status = s.status := rfl
@[simp] theorem drawn_params (s : State) : (s.drawn).params = s.params := rfl
@[simp] theorem drawn_rawIn (s : State) : (s.drawn).rawIn = s.rawIn := rfl
@[simp] theorem drawn_pending (s : State) : (s.drawn).pending = s.pending := rfl
@[simp] theorem drawn_events (s : State) : (s.drawn).events = s.events := rfl
@[simp] theorem drawn_reads (s : State) : (s.drawn).reads = s.reads := rfl
@[simp] theorem drawn_draws (s : State) : (s.drawn).draws = s.draws + 1 := rfl
@[simp] theorem drawn_active (s : State) (k : Ch) : (s.drawn).active k = s.active k := rfl

/-! ### returned -/

@[simp] theorem returned_chan (idx : BitVec 4) (w : Word) (s : State) (k : Ch) : (s.returned idx w).chan k = s.chan k := by cases k <;> rfl
@[simp] theorem returned_avg (idx : BitVec 4) (w : Word) (s : State) : (s.returned idx w).avg = s.avg := rfl
@[simp] theorem returned_temp (idx : BitVec 4) (w : Word) (s : State) : (s.returned idx w).temp = s.temp := rfl
@[simp] theorem returned_status (idx : BitVec 4) (w : Word) (s : State) : (s.returned idx w).status = s.status := rfl
@[simp] theorem returned_params (idx : BitVec 4) (w : Word) (s : State) : (s.returned idx w).params = s.params := rfl
@[simp] theorem returned_rawIn (idx : BitVec 4) (w : Word) (s : State) : (s.returned idx w).rawIn = s.rawIn := rfl
@[simp] theorem returned_pending (idx : BitVec 4) (w : Word) (s : State) : (s.returned idx w).pending = s.pending := rfl
@[simp] theorem returned_events (idx : BitVec 4) (w : Word) (s : State) : (s.returned idx w).events = s.events := rfl
@[simp] theorem returned_reads (idx : BitVec 4) (w : Word) (s : State) : (s.returned idx w).reads = s.reads ++ [⟨idx, w⟩] := rfl
@[simp] theorem returned_draws (idx : BitVec 4) (w : Word) (s : State) : (s.returned idx w).draws = s.draws := rfl
@[simp] theorem returned_active (idx : BitVec 4) (w : Word) (s : State) (k : Ch) : (s.returned idx w).active k = s.active k := rfl

/-! ### accepted -/

@[simp] theorem accepted_chan (rest : List HostAccess) (s : State) (k : Ch) : (s.accepted rest).chan k = s.chan k := by cases k <;> rfl
@[simp] theorem accepted_avg (rest : List HostAccess) (s : State) : (s.accepted rest).avg = s.avg := rfl
@[simp] theorem accepted_temp (rest : List HostAccess) (s : State) : (s.accepted rest).temp = s.temp := rfl
@[simp] theorem accepted_status (rest : List HostAccess) (s : State) : (s.accepted rest).status = s.status := rfl
@[simp] theorem accepted_params (rest : List HostAccess) (s : State) : (s.accepted rest).params = s.params := rfl
@[simp] theorem accepted_rawIn (rest : List HostAccess) (s : State) : (s.accepted rest).rawIn = s.rawIn := rfl
@[simp] theorem accepted_pending (rest : List HostAccess) (s : State) : (s.accepted rest).pending = rest := rfl
@[simp] theorem accepted_events (rest : List HostAccess) (s : State) : (s.accepted rest).events = s.events := rfl
@[simp] theorem accepted_reads (rest : List HostAccess) (s : State) : (s.accepted rest).reads = s.reads := rfl
@[simp] theorem accepted_draws (rest : List HostAccess) (s : State) : (s.accepted rest).draws = s.draws := rfl
@[simp] theorem accepted_active (rest : List HostAccess) (s : State) (k : Ch) : (s.accepted rest).active k = s.active k := rfl

/-! ### withCommand -/

@[simp] theorem withCommand_chan (w : Word) (s : State) (k : Ch) : (s.withCommand w).chan k = s.chan k := by cases k <;> rfl
@[simp] theorem withCommand_avg (w : Word) (s : State) : (s.withCommand w).avg = s.avg := rfl
@[simp] theorem withCommand_temp (w : Word) (s : State) : (s.withCommand w).temp = s.temp := rfl
@[simp] theorem withCommand_status (w : Word) (s : State) : (s.withCommand w).status = s.status := rfl
@[simp] theorem withCommand_params (w : Word) (s : State) : (s.withCommand w).params = s.params := rfl
@[simp] theorem withCommand_rawIn (w : Word) (s : State) : (s.withCommand w).rawIn = s.rawIn := rfl
@[simp] theorem withCommand_pending (w : Word) (s : State) : (s.withCommand w).pending = .write 0#4 w :: s.pending := rfl
@[simp] theorem withCommand_events (w : Word) (s : State) : (s.withCommand w).events = s.events := rfl
@[simp] theorem withCommand_reads (w : Word) (s : State) : (s.withCommand w).reads = s.reads := rfl
@[simp] theorem withCommand_draws (w : Word) (s : State) : (s.withCommand w).draws = s.draws := rfl
@[simp] theorem withCommand_active (w : Word) (s : State) (k : Ch) : (s.withCommand w).active k = s.active k := rfl

/-! ### resetRegisters -/

@[simp] theorem resetRegisters_chan (s : State) (k : Ch) : (s.resetRegisters).chan k = Channel.reset := by cases k <;> rfl
@[simp] theorem resetRegisters_avg (s : State) : (s.resetRegisters).avg = 0x00200000#32 := rfl
@[simp] theorem resetRegisters_temp (s : State) : (s.resetRegisters).temp = .noValue := rfl
@[simp] theorem resetRegisters_status (s : State) : (s.resetRegisters).status = Status.reset := rfl
@[simp] theorem resetRegisters_params (s : State) : (s.resetRegisters).params = s.params := rfl
@[simp] theorem resetRegisters_rawIn (s : State) : (s.resetRegisters).rawIn = s.rawIn := rfl
@[simp] theorem resetRegisters_pending (s : State) : (s.resetRegisters).pending = s.pending := rfl
@[simp] theorem resetRegisters_events (s : State) : (s.resetRegisters).events = s.events := rfl
@[simp] theorem resetRegisters_reads (s : State) : (s.resetRegisters).reads = s.reads := rfl
@[simp] theorem resetRegisters_draws (s : State) : (s.resetRegisters).draws = s.draws := rfl
@[simp] theorem resetRegisters_active (s : State) (k : Ch) : (s.resetRegisters).active k = s.active k := rfl

end Sys2Proof.Machine
end

