-- ==== Sys2Proof/Laws/Ops.lean ====
section
/-! SUPPORT. One spec lemma per shared operation: everything it can do, said once, for the proofs to cite. -/

namespace Sys2Proof.Machine

/-! ### The gate and the commands -/

/-- The effect of a command once it is legal. -/
def effectOf : Instr → State → State
  | .init => initEffect
  | .config c => configure c
  | .smooth raw => smoothEffect raw
  | .estim => estimEffect
  | .interp c => interpEffect c
  | .setduty c pct => setdutyEffect c pct
  | .tick => tickEffect

theorem exec_eq (i : Instr) (s : State) :
    exec i s = .next (if s.legal i then effectOf i s else s.flagIllcmd) := by cases i <;> rfl

/-- All that a command can do. -/
theorem exec_cases {i : Instr} {s t : State} (h : exec i s = .next t) :
    (s.legal i = true ∧ t = effectOf i s) ∨ (s.legal i = false ∧ t = s.flagIllcmd) := by
  rw [exec_eq] at h
  injection h with h
  cases hl : s.legal i <;> simp [hl] at h
  · exact .inr ⟨rfl, h.symm⟩
  · exact .inl ⟨rfl, h.symm⟩

/-- A legal command has its effect. -/
theorem exec_of_legal {i : Instr} {s : State} (h : s.legal i = true) : exec i s = .next (effectOf i s) := by
  rw [exec_eq, h]; rfl

/-- A command that is not legal is refused. -/
theorem exec_of_illegal {i : Instr} {s : State} (h : s.legal i = false) : exec i s = .next s.flagIllcmd := by
  rw [exec_eq, h]; rfl

@[simp] theorem percentOk_iff (pct : Percent) : percentOk pct = true ↔ pct.toNat ≤ 100 := by simp [percentOk]

theorem setdutyEffect_of_ok {pct : Percent} (h : pct.toNat ≤ 100) (c : Ch) (s : State) :
    setdutyEffect c pct s = setDuty c pct s := if_pos ((percentOk_iff pct).2 h)

theorem setdutyEffect_of_excess {pct : Percent} (h : 100 < pct.toNat) (c : Ch) (s : State) :
    setdutyEffect c pct s = s.flagPcterr := if_neg (fun k => absurd ((percentOk_iff pct).1 k) (by omega))

theorem interpEffect_of_value {s : State} {w : Word} (h : s.temp = .value w) (c : Ch) :
    interpEffect c s = s.writeDuty c (interp (paramCurve s.params c) (fxInt w)) := by unfold interpEffect; rw [h]

theorem interpEffect_of_noValue {s : State} (h : s.temp = .noValue) (c : Ch) :
    interpEffect c s = s.drawn.writeDuty c (BitVec.ofNat 7 (Config.freeDuty s.draws).val) := by
  unfold interpEffect; rw [h]

@[simp] theorem overflow_eq (x : Selection) : x.overflow = decide (255 < x.topFull) := rfl

theorem fx_mid : fx mid = 0x00200000#32 := by decide

theorem fxInt_eq_shift (w : Word) : fxInt w = w.toInt >>> (12 : Nat) := by
  simp [fxInt, asr12, Int.shiftRight_eq_div_pow]

/-! ### Reading TOP and setting the duty -/

@[simp] theorem afterTopRead_chan (s : State) (c k : Ch) : (s.afterTopRead c).chan k = s.chan k := by
  unfold State.afterTopRead; split <;> simp
@[simp] theorem afterTopRead_avg (s : State) (c : Ch) : (s.afterTopRead c).avg = s.avg := by
  unfold State.afterTopRead; split <;> simp
@[simp] theorem afterTopRead_temp (s : State) (c : Ch) : (s.afterTopRead c).temp = s.temp := by
  unfold State.afterTopRead; split <;> simp
@[simp] theorem afterTopRead_status (s : State) (c : Ch) : (s.afterTopRead c).status = s.status := by
  unfold State.afterTopRead; split <;> simp
@[simp] theorem afterTopRead_params (s : State) (c : Ch) : (s.afterTopRead c).params = s.params := by
  unfold State.afterTopRead; split <;> simp
@[simp] theorem afterTopRead_rawIn (s : State) (c : Ch) : (s.afterTopRead c).rawIn = s.rawIn := by
  unfold State.afterTopRead; split <;> simp
@[simp] theorem afterTopRead_pending (s : State) (c : Ch) : (s.afterTopRead c).pending = s.pending := by
  unfold State.afterTopRead; split <;> simp
@[simp] theorem afterTopRead_events (s : State) (c : Ch) : (s.afterTopRead c).events = s.events := by
  unfold State.afterTopRead; split <;> simp
@[simp] theorem afterTopRead_reads (s : State) (c : Ch) : (s.afterTopRead c).reads = s.reads := by
  unfold State.afterTopRead; split <;> simp
@[simp] theorem afterTopRead_active (s : State) (c k : Ch) : (s.afterTopRead c).active k = s.active k := by
  unfold State.afterTopRead; split <;> simp

theorem topRead_of_value {s : State} {c : Ch} {v : BitVec 8} (h : (s.chan c).ttop = .value v) :
    s.topRead c = v ∧ s.afterTopRead c = s := by simp [State.topRead, State.afterTopRead, h]

theorem topRead_of_noValue {s : State} {c : Ch} (h : (s.chan c).ttop = .noValue) :
    s.topRead c = Config.freeTop s.draws ∧ s.afterTopRead c = s.drawn := by
  simp [State.topRead, State.afterTopRead, h]

@[simp] theorem setDuty_chan_self (c : Ch) (pct : Percent) (s : State) :
    (setDuty c pct s).chan c = { s.chan c with tcmp := .value (dutyTicks (s.topRead c) pct) } := by
  simp [setDuty, Channel.mirror]
@[simp] theorem setDuty_chan_other (c k : Ch) (pct : Percent) (s : State) (h : k ≠ c) :
    (setDuty c pct s).chan k = s.chan k := by simp [setDuty, h]
@[simp] theorem setDuty_avg (c : Ch) (pct : Percent) (s : State) : (setDuty c pct s).avg = s.avg := by simp [setDuty]
@[simp] theorem setDuty_temp (c : Ch) (pct : Percent) (s : State) : (setDuty c pct s).temp = s.temp := by simp [setDuty]
@[simp] theorem setDuty_status (c : Ch) (pct : Percent) (s : State) : (setDuty c pct s).status = s.status := by
  simp [setDuty]
@[simp] theorem setDuty_params (c : Ch) (pct : Percent) (s : State) : (setDuty c pct s).params = s.params := by
  simp [setDuty]
@[simp] theorem setDuty_rawIn (c : Ch) (pct : Percent) (s : State) : (setDuty c pct s).rawIn = s.rawIn := by
  simp [setDuty]
@[simp] theorem setDuty_pending (c : Ch) (pct : Percent) (s : State) : (setDuty c pct s).pending = s.pending := by
  simp [setDuty]
@[simp] theorem setDuty_reads (c : Ch) (pct : Percent) (s : State) : (setDuty c pct s).reads = s.reads := by
  simp [setDuty]
@[simp] theorem setDuty_active (c k : Ch) (pct : Percent) (s : State) : (setDuty c pct s).active k = s.active k := by
  simp [setDuty]
@[simp] theorem setDuty_events (c : Ch) (pct : Percent) (s : State) :
    (setDuty c pct s).events = s.events ++ [⟨c, .cmp (dutyTicks (s.topRead c) pct)⟩] := by simp [setDuty]

/-! ### Configuring a channel -/

@[simp] theorem configure_chan_self (c : Ch) (s : State) :
    (configure c s).chan c = { s.chan c with
      tmode := 1#1, tpresc := .value (channelSelection s.params c).presc,
      ttop := .value (channelSelection s.params c).top } := by
  simp [configure, Channel.mirror]
@[simp] theorem configure_chan_other (c k : Ch) (s : State) (h : k ≠ c) : (configure c s).chan k = s.chan k := by
  simp [configure, h]
@[simp] theorem configure_avg (c : Ch) (s : State) : (configure c s).avg = s.avg := by simp [configure]
@[simp] theorem configure_temp (c : Ch) (s : State) : (configure c s).temp = s.temp := by simp [configure]
@[simp] theorem configure_status (c : Ch) (s : State) :
    (configure c s).status = s.status.noteTopovf c (channelSelection s.params c).overflow := by simp [configure]
@[simp] theorem configure_params (c : Ch) (s : State) : (configure c s).params = s.params := by simp [configure]
@[simp] theorem configure_rawIn (c : Ch) (s : State) : (configure c s).rawIn = s.rawIn := by simp [configure]
@[simp] theorem configure_pending (c : Ch) (s : State) : (configure c s).pending = s.pending := by simp [configure]
@[simp] theorem configure_reads (c : Ch) (s : State) : (configure c s).reads = s.reads := by simp [configure]
@[simp] theorem configure_draws (c : Ch) (s : State) : (configure c s).draws = s.draws := by simp [configure]
@[simp] theorem configure_active (c k : Ch) (s : State) : (configure c s).active k = s.active k := by simp [configure]
@[simp] theorem configure_events (c : Ch) (s : State) :
    (configure c s).events = s.events ++ [⟨c, .mode 1#1⟩, ⟨c, .presc (channelSelection s.params c).presc⟩,
      ⟨c, .top (channelSelection s.params c).top⟩] := by simp [configure]

@[simp] theorem noteTopovf_run (t : Status) (c : Ch) (b : Bool) : (t.noteTopovf c b).run = t.run := by cases c <;> rfl
@[simp] theorem noteTopovf_illcmd (t : Status) (c : Ch) (b : Bool) : (t.noteTopovf c b).illcmd = t.illcmd := by
  cases c <;> rfl
@[simp] theorem noteTopovf_pcterr (t : Status) (c : Ch) (b : Bool) : (t.noteTopovf c b).pcterr = t.pcterr := by
  cases c <;> rfl
@[simp] theorem noteTopovf_topovf_self (t : Status) (c : Ch) (b : Bool) :
    (t.noteTopovf c b).topovf c = (t.topovf c || b) := by cases c <;> rfl
@[simp] theorem noteTopovf_topovf_other (t : Status) (c k : Ch) (b : Bool) (h : k ≠ c) :
    (t.noteTopovf c b).topovf k = t.topovf k := by
  cases c <;> cases k <;> first | rfl | exact absurd rfl h

/-! ### Active channels -/

theorem whenActive_of_active {c : Ch} {f : State → State} {s : State} (h : s.active c = true) :
    whenActive c f s = f s := by simp [whenActive, h]

theorem whenActive_of_inactive {c : Ch} {f : State → State} {s : State} (h : s.active c = false) :
    whenActive c f s = s := by simp [whenActive, h]

/-- What holds before and is kept by the effect holds after, whether or not the channel is active. -/
theorem whenActive_keeps {P : State → Prop} {c : Ch} {f : State → State} {s : State} (h : P s)
    (hf : s.active c = true → P (f s)) : P (whenActive c f s) := by
  unfold whenActive
  split
  · exact hf ‹_›
  · exact h

/-! ### Decoding, the ports and the step -/

/-- All that a write to the register port can do. -/
theorem regWrite_cases (idx : BitVec 4) (w : Word) (s : State) :
    (idx ≠ 0#4 ∧ regWrite idx w s = .next s) ∨
    (idx = 0#4 ∧ ∃ i, decode w = .command i ∧ regWrite idx w s = exec i s) ∨
    (idx = 0#4 ∧ ∃ why, decode w = .illegal why ∧ regWrite idx w s = .next s.flagIllcmd) := by
  by_cases h : idx = 0#4
  · cases hd : decode w with
    | command i => exact .inr (.inl ⟨h, i, rfl, by simp [regWrite, cmdWrite, h, hd]⟩)
    | illegal why => exact .inr (.inr ⟨h, why, rfl, by simp [regWrite, cmdWrite, h, hd]⟩)
  · exact .inl ⟨h, by simp [regWrite, h]⟩

/-- All that a host read can do. -/
theorem regRead_cases (idx : BitVec 4) (s : State) :
    (∃ w, s.register idx = .value w ∧ regRead idx s = s.returned idx w) ∨
    (s.register idx = .noValue ∧ regRead idx s = s.drawn.returned idx (Config.freeWord s.draws)) := by
  cases h : s.register idx with
  | value w => exact .inl ⟨w, rfl, by simp [regRead, h]⟩
  | noValue => exact .inr ⟨rfl, by simp [regRead, h]⟩

/-- All that a write abandoned by reset can do. -/
theorem regWriteAborted_cases {idx : BitVec 4} {w : Word} {s t : State} (h : regWriteAborted idx w s = .next t) :
    ∃ done, regWrite idx w s = .next done ∧ t = abandoned s done := by
  unfold regWriteAborted at h
  split at h
  · rename_i done hd
    injection h with h
    exact ⟨done, hd, h.symm⟩
  · cases h
  · cases h

/-- All that a step can do. -/
theorem step_cases {s t : State} (h : step s = .next t) :
    (s.pending = [] ∧ t = s) ∨
    ∃ a rest, s.pending = a :: rest ∧ perform a (s.accepted rest) = .next t := by
  unfold step advance at h
  cases hp : s.pending with
  | nil =>
    simp only [hp] at h
    injection h with h
    exact .inl ⟨rfl, h.symm⟩
  | cons a rest =>
    simp only [hp] at h
    exact .inr ⟨a, rest, rfl, h⟩

/-- What every effect of the outside world keeps, a step keeps: each hypothesis is one thing a step can do. -/
theorem step_keeps {P : State → Prop} {s t : State} (hs : step s = .next t) (h : P s)
    (haccept : ∀ rest u, P u → P (State.accepted u rest)) (hpresent : ∀ raw u, P u → P { u with rawIn := raw })
    (hdrawn : ∀ u, P u → P u.drawn) (hreturned : ∀ idx w u, P u → P (State.returned idx w u))
    (hreset : ∀ u, P u → P u.resetRegisters) (habandon : ∀ u v, P u → P v → P (abandoned u v))
    (hillcmd : ∀ u, P u → P u.flagIllcmd) (heffect : ∀ i u, P u → u.legal i = true → P (effectOf i u)) : P t := by
  have hwrite : ∀ idx w u v, P u → regWrite idx w u = .next v → P v := by
    intro idx w u v hu hv
    obtain ⟨_, e⟩ | ⟨_, i, _, e⟩ | ⟨_, _, _, e⟩ := regWrite_cases idx w u <;> rw [e] at hv
    · injection hv with hv
      exact hv ▸ hu
    · obtain ⟨hl, rfl⟩ | ⟨_, rfl⟩ := exec_cases hv
      · exact heffect i u hu hl
      · exact hillcmd u hu
    · injection hv with hv
      exact hv ▸ hillcmd u hu
  obtain ⟨_, rfl⟩ | ⟨a, rest, _, hp⟩ := step_cases hs
  · exact h
  · have ha := haccept rest s h
    cases a with
    | write idx w => exact hwrite _ _ _ _ ha hp
    | read idx =>
      injection hp with hp
      subst hp
      obtain ⟨w, _, e⟩ | ⟨_, e⟩ := regRead_cases idx (s.accepted rest) <;> rw [e]
      · exact hreturned _ _ _ ha
      · exact hreturned _ _ _ (hdrawn _ ha)
    | present raw =>
      injection hp with hp
      exact hp ▸ hpresent raw _ ha
    | reset =>
      injection hp with hp
      exact hp ▸ hreset _ ha
    | writeAborted idx w =>
      obtain ⟨done, hd, rfl⟩ := regWriteAborted_cases hp
      exact habandon _ _ ha (hwrite _ _ _ _ ha hd)

/-- The invariant, its two channels taken together. -/
theorem inv_iff (s : State) : s.inv = true ↔
    s.avg.toNat ≤ 4190208 ∧ s.temp.all tempInRange = true ∧
      (s.status.run = true ∨ (s.temp = .noValue ∧ s.avg = 0x00200000#32 ∧ s.status.pcterr = false)) ∧
      ∀ c, channelInv s.params s.status.run (s.status.topovf c) c (s.chan c) = true := by
  simp only [State.inv, avgInRange, Bool.and_eq_true, Bool.or_eq_true, decide_eq_true_eq, Bool.not_eq_true']
  constructor
  · rintro ⟨⟨⟨⟨a, b⟩, c⟩, d⟩, e⟩
    refine ⟨a, b, by tauto, fun k => ?_⟩
    cases k
    · exact d
    · exact e
  · rintro ⟨a, b, c, d⟩
    exact ⟨⟨⟨⟨a, b⟩, by tauto⟩, d .ch0⟩, d .ch1⟩

end Sys2Proof.Machine
end

