-- ==== Sys2Proof/Laws/PerInstr.lean ====
section
/-! SUPPORT. The statements about every command as syntax, one lemma per constructor. -/

namespace Sys2Proof

theorem assemble_upper (op : BitVec 4) (ch : BitVec 1) (imm : BitVec 10) :
    (assemble op ch imm).extractLsb' 16 16 = 0#16 := by
  ext k hk
  have ho : op.getLsbD (16 + k - 12) = false := BitVec.getLsbD_of_ge op _ (by omega)
  have hc : ch.getLsbD (16 + k - 11) = false := BitVec.getLsbD_of_ge ch _ (by omega)
  have hi : imm.getLsbD (16 + k) = false := BitVec.getLsbD_of_ge imm _ (by omega)
  simp [assemble, ho, hc, hi]

/-- No bit of the sample reaches a bit the row of `SMOOTH` fixes. -/
theorem smooth_low (raw : RawSample) : (encode (.smooth raw)).extractLsb' 0 16 &&& 0xFC00#16 = 0x3000#16 := by
  have h : (encode (.smooth raw)).extractLsb' 0 16 = 0x3000#16 ||| raw.setWidth 16 := by
    ext k hk
    simp [encode, assemble]
    interval_cases k <;> simp
  rw [h]
  ext k hk
  simp
  interval_cases k <;> simp

theorem setduty_low (ch : Ch) (pct : Percent) :
    (encode (.setduty ch pct)).extractLsb' 0 16 &&& 0xF780#16 = 0x6000#16 := by
  cases ch <;> revert pct <;> decide

end Sys2Proof

namespace Sys2Proof.Laws.EncodingMatchesRow

/-- The word of a command has a zero upper half, and its low half hits the command's row of the opcode map (R74, R75). -/
def Statement (i : Instr) : Prop :=
  (encode i).extractLsb' 16 16 = 0#16 ∧ (encode i).extractLsb' 0 16 &&& (rowOf i).mask = (rowOf i).pattern

theorem init : Statement .init := by
  unfold Statement
  decide

theorem config (ch : Ch) : Statement (.config ch) := by
  unfold Statement
  cases ch <;> decide

theorem smooth (raw : RawSample) : Statement (.smooth raw) := ⟨assemble_upper _ _ _, smooth_low raw⟩

theorem estim : Statement .estim := by
  unfold Statement
  decide

theorem interp (ch : Ch) : Statement (.interp ch) := by
  unfold Statement
  cases ch <;> decide

theorem setduty (ch : Ch) (pct : Percent) : Statement (.setduty ch pct) := ⟨assemble_upper _ _ _, setduty_low ch pct⟩

theorem tick : Statement .tick := by
  unfold Statement
  decide

end Sys2Proof.Laws.EncodingMatchesRow
end

