-- ==== Sys2Proof/Tests/Slice0.lean ====
section
/-! SUPPORT. The model's own tests. Expected values are the spec's: the examples of files 40 to 45, the vectors of
95_test_vectors.md, and words written out from the encoding of 30_encoding.md R71 to R74. After them, one theorem per
statement with hypotheses shows states and operands that meet them. -/

namespace Sys2Proof.Tests

open Sys2Proof Sys2Proof.Machine

/-! ### The example configuration of 95_test_vectors.md -/

/-- `EX_FAN` (40_curve_interpolator.md). -/
def exFan : List Breakpoint := [⟨0, 0⟩, ⟨25, 10⟩, ⟨35, 30⟩, ⟨45, 60⟩, ⟨60, 100⟩]

/-- `EX_PUMP` (40_curve_interpolator.md). -/
def exPump : List Breakpoint := [⟨0, 0⟩, ⟨25, 10⟩, ⟨30, 20⟩, ⟨35, 35⟩, ⟨40, 50⟩, ⟨45, 65⟩, ⟨50, 80⟩, ⟨55, 100⟩]

/-- The example configuration with the given `ACTIVE` and `TARGET_HZ`. -/
def exData (active : BitVec 2) (targetHz : Word) : ParamData :=
  { cpuHz := 16000000, targetHz := targetHz, active := active, pset0 := .familyA, pset1 := .familyB, curve0 := exFan,
    curve1 := exPump }

def exParams : Params := ⟨exData 0b11 25000, by decide⟩

/-- Only the fan, with a frequency whose TOP does not fit (V-P16). -/
def overflowParams : Params := ⟨exData 0b01 30, by decide⟩

/-- The example configuration after reset, 512 on the sensor port. -/
def idle : State := State.resetWith exParams 512

def configured : Channel :=
  { duty := .noValue, tmode := 1, tpresc := .value ⟨1, 8⟩, ttop := .value 40, tcmp := .noValue }

/-- The example configuration after `init`. -/
def running : State :=
  { idle with status := { Status.reset with run := true }, ch0 := configured, ch1 := configured }

/-- Fan only, before `init`. -/
def idleFanOnly : State := State.resetWith overflowParams 512

/-- Fan only, in Running. -/
def runningFanOnly : State :=
  { idleFanOnly with status := { Status.reset with run := true }, ch0 := configured }

/-- `s` with one access waiting. -/
def waiting (s : State) (a : HostAccess) : State := { s with pending := [a] }

/-- The next state, if there is one. -/
def nextOf (o : Host.Outcome State Fault Refusal) : Option State :=
  match o with
  | .next t => some t
  | .fault _ => none
  | .refused _ => none

/-! ### Well-formedness: each check refuses an ill-formed term -/

theorem test_wf_accepts_example : exParams.data.wf = true := by decide
theorem test_wf_refuses_one_row : curveLengthOk [⟨0, 100⟩] = false := by decide
theorem test_wf_refuses_nine_rows :
    curveLengthOk [⟨0, 0⟩, ⟨1, 1⟩, ⟨2, 2⟩, ⟨3, 3⟩, ⟨4, 4⟩, ⟨5, 5⟩, ⟨6, 6⟩, ⟨7, 7⟩, ⟨8, 100⟩] = false := by decide
theorem test_wf_refuses_equal_temperatures : curveTempsRise [⟨25, 0⟩, ⟨25, 100⟩] = false := by decide
theorem test_wf_compares_temperatures_signed :
    curveTempsRise [⟨1, 0⟩, ⟨0xFFFF, 100⟩] = false ∧ curveTempsRise [⟨0xFFFF, 0⟩, ⟨1, 100⟩] = true := by decide
theorem test_wf_refuses_duty_above_100 : curveDutiesInRange [⟨0, 0⟩, ⟨1, 101⟩] = false := by decide
theorem test_wf_refuses_falling_duty : curveDutiesRise [⟨0, 50⟩, ⟨1, 49⟩] = false := by decide
theorem test_wf_refuses_last_duty_below_100 : curveEndsFull [⟨0, 0⟩, ⟨1, 99⟩] = false := by decide
theorem test_wf_refuses_zero_target : ParamData.wf (exData 0b11 0) = false := by decide
theorem test_wf_refuses_zero_cpu : ParamData.wf { exData 0b11 25000 with cpuHz := 0 } = false := by decide
theorem test_wf_refuses_bad_curve0 : ParamData.wf { exData 0b11 25000 with curve0 := [] } = false := by decide
theorem test_wf_refuses_bad_curve1 : ParamData.wf { exData 0b11 25000 with curve1 := [] } = false := by decide

/-! ### Decoding: words written bit by bit from R71 to R74 -/

theorem test_decode_init : decode 0b00000000000000000001000000000000 = .command .init := by decide
theorem test_decode_config :
    decode 0b00000000000000000010000000000000 = .command (.config .ch0) ∧
    decode 0b00000000000000000010100000000000 = .command (.config .ch1) := by decide
theorem test_decode_smooth :
    decode 0b00000000000000000011001010100101 = .command (.smooth 0b1010100101) ∧
    decode 0b00000000000000000011000101011010 = .command (.smooth 0b0101011010) := by decide
theorem test_decode_estim : decode 0b00000000000000000100000000000000 = .command .estim := by decide
theorem test_decode_interp :
    decode 0b00000000000000000101000000000000 = .command (.interp .ch0) ∧
    decode 0b00000000000000000101100000000000 = .command (.interp .ch1) := by decide
theorem test_decode_setduty :
    decode 0b00000000000000000110000001010101 = .command (.setduty .ch0 0b1010101) ∧
    decode 0b00000000000000000110100000101010 = .command (.setduty .ch1 0b0101010) := by decide
theorem test_decode_tick : decode 0b00000000000000000111000000000000 = .command .tick := by decide
/-- V-C3, V-C4, V-C8, V-C11, V-C12, V-C18, V-C24, V-C27 to V-C30. -/
theorem test_decode_illegal :
    decode 0x1001 = .illegal .unusedField ∧ decode 0x1800 = .illegal .unusedField ∧
    decode 0x2400 = .illegal .unusedField ∧ decode 0x3400 = .illegal .unusedField ∧
    decode 0x3BFF = .illegal .unusedField ∧ decode 0x5001 = .illegal .unusedField ∧
    decode 0x6080 = .illegal .unusedField ∧ decode 0x0000 = .illegal .undefinedOp ∧
    decode 0x8000 = .illegal .undefinedOp ∧ decode 0xFFFF = .illegal .undefinedOp ∧
    decode 0x00017000 = .illegal .upperHalf ∧ decode 0xFFFF1000 = .illegal .upperHalf := by decide
theorem test_decodeTableWord_reads_the_low_bits :
    decodeTableWord 16 0x6864 = some (.setduty .ch1 100) ∧ decodeTableWord 16 0x0000 = none := by decide
theorem test_withFetchWord_runs_the_command :
    (nextOf (step (idle.withFetchWord 16 0x1000))).map (fun t => t.status.run) = some true := by decide

/-! ### The functions, at the vectors of 95_test_vectors.md -/

/-- V-S1b, V-S2b, V-S2e, V-S2f, V-S2i. -/
theorem test_smooth_vectors :
    smooth 2097152 1023 = 2515661 ∧ smooth 4190208 1023 = 4190208 ∧ smooth 1 0 = 0 ∧ smooth 4095 0 = 3276 ∧
    smooth 6 0 = 4 := by decide
/-- V-E1, V-E4, V-E5, V-E10, V-E16 to V-E19. -/
theorem test_estimate_vectors :
    (estimate 0).toInt = -106496 ∧ (estimate 1060864).toInt = -409 ∧ (estimate 1064959).toInt = 0 ∧
    estimate 2097152 = 103219 ∧ estimate 2088950 = 102399 ∧ estimate 2088951 = 102400 ∧
    estimate 2088969 = 102400 ∧ estimate 2088970 = 102401 := by decide
/-- V-E4, V-E21: the integer part rounds toward minus infinity. -/
theorem test_fxInt_floors : fxInt (estimate 1060864) = -1 ∧ fxInt (estimate 859202) = -6 := by decide
/-- V-I3, V-I8, V-I9, V-I11, V-I17, V-I18, V-I22, V-I26. -/
theorem test_interp_vectors :
    interp exFan (-1) = 0 ∧ interp exFan 25 = 10 ∧ interp exPump 26 = 12 ∧ interp exPump 34 = 32 ∧
    interp exFan 59 = 97 ∧ interp exFan 60 = 100 ∧ interp [⟨10, 20⟩, ⟨30, 100⟩] 3 = 20 ∧
    interp [⟨-20, 0⟩, ⟨80, 100⟩] (-5) = 15 := by decide
/-- V-P1, V-P3, V-P9a, V-P9b, V-P15, V-P17. -/
theorem test_select_vectors :
    select 16000000 25000 .familyA = ⟨8, 1, 40⟩ ∧ select 16000000 31373 .familyB = ⟨1, 0, 254⟩ ∧
    select 16000000 3921 .familyA = ⟨64, 2, 31⟩ ∧ select 16000000 3921 .familyB = ⟨32, 2, 63⟩ ∧
    select 522240 1 .familyA = ⟨1024, 4, 255⟩ ∧ select 16000000 7 .familyB = ⟨1024, 6, 1116⟩ ∧
    (select 16000000 7 .familyB).top = 92 := by decide
/-- V-D9, V-D11, V-D14, V-D17. -/
theorem test_dutyTicks_vectors :
    dutyTicks 40 99 = 39 ∧ dutyTicks 0 100 = 0 ∧ dutyTicks 255 100 = 255 ∧ dutyTicks 3 50 = 1 := by decide

/-! ### One step of each command -/

/-- The example of R151: six events in their order. -/
theorem test_init_events :
    (nextOf (exec .init idle)).map (fun t => t.events) =
      some [⟨.ch0, .mode 1⟩, ⟨.ch0, .presc ⟨1, 8⟩⟩, ⟨.ch0, .top 40⟩, ⟨.ch1, .mode 1⟩, ⟨.ch1, .presc ⟨1, 8⟩⟩,
        ⟨.ch1, .top 40⟩] := by decide
/-- Program P5: TOP overflows to 4, the flag is set, Running is entered. -/
theorem test_init_overflow :
    (nextOf (exec .init idleFanOnly)).map (fun t => (t.status.word, t.ch0.ttop, t.ch1.tmode)) =
      some (0x41, .value 4, 0) := by decide
/-- The example of R136. -/
theorem test_config_registers :
    (nextOf (exec (.config .ch1) idle)).map (fun t => (t.register 0xD, t.register 0xE, t.ch0, t.status.run)) =
      some (.value 0x1008, .value 40, Channel.reset, false) := by decide
/-- V-C6: an inactive channel. -/
theorem test_config_inactive :
    nextOf (exec (.config .ch1) idleFanOnly) = some idleFanOnly.flagIllcmd := by decide
/-- The example of R111. -/
theorem test_smooth_step :
    (nextOf (exec (.smooth 1023) running)).map (fun t => (t.avg, t.temp)) = some (2515661, .noValue) := by decide
/-- The example of R101. -/
theorem test_estim_step :
    (nextOf (exec .estim running)).map (fun t => (t.avg, t.temp)) = some (2097152, .value 103219) := by decide
/-- The command form of V-I: `TEMP = 145070`. -/
theorem test_interp_step :
    (nextOf (exec (.interp .ch1) { running with temp := .value 145070 })).map (fun t => (t.ch1, t.ch0, t.events)) =
      some ({ configured with duty := .value 35 }, configured, []) := by decide
/-- The command form of V-D: `setduty ch1, #100`. -/
theorem test_setduty_step :
    (nextOf (exec (.setduty .ch1 100) running)).map (fun t => (t.ch1, t.events)) =
      some ({ configured with tcmp := .value 40 }, [⟨.ch1, .cmp 40⟩]) := by decide
/-- V-C20, V-C22, V-C23: the percent check comes last. -/
theorem test_setduty_refusals :
    nextOf (exec (.setduty .ch0 101) running) = some running.flagPcterr ∧
    nextOf (exec (.setduty .ch1 120) idle) = some idle.flagIllcmd ∧
    nextOf (exec (.setduty .ch1 101) runningFanOnly) = some runningFanOnly.flagIllcmd := by decide
/-- Program P1. -/
theorem test_tick_end_to_end :
    (nextOf (exec .tick running)).map (fun t => (t.avg, t.temp, t.ch0, t.ch1, t.events)) =
      some (2097152, .value 103219, { configured with duty := .value 10, tcmp := .value 4 },
        { configured with duty := .value 10, tcmp := .value 4 }, [⟨.ch0, .cmp 4⟩, ⟨.ch1, .cmp 4⟩]) := by decide
/-- Program P3, the first tick. -/
theorem test_tick_warm :
    (nextOf (exec .tick { running with rawIn := 700 })).map
        (fun t => (t.avg, t.temp, t.ch0, t.ch1)) =
      some (2251124, .value 118616, { configured with duty := .value 16, tcmp := .value 6 },
        { configured with duty := .value 16, tcmp := .value 6 }) := by decide

/-! ### The ports -/

/-- "From reset: `RegRead(0x1) = 0`, `RegRead(0x2) = 0x0020_0000`, `RegRead(0x8) = 0`, `RegRead(0xC) = 0`". -/
theorem test_reads_after_reset :
    idle.register 1 = .value 0 ∧ idle.register 2 = .value 0x00200000 ∧ idle.register 8 = .value 0 ∧
    idle.register 0xC = .value 0 ∧ idle.register 0 = .value 0 ∧ idle.register 6 = .value 0 ∧
    idle.register 3 = .noValue ∧ idle.register 0xF = .noValue := by decide
theorem test_write_elsewhere_is_ignored : nextOf (perform (.write 2 0x7000) running) = some running := by decide
/-- V-C29. -/
theorem test_upper_half_is_refused :
    nextOf (perform (.write 0 0x00017000) running) = some running.flagIllcmd := by decide
theorem test_present_changes_the_sample :
    (nextOf (perform (.present 700) running)).map (fun t => t.rawIn) = some 700 := by decide
theorem test_reset_clears :
    (nextOf (perform .reset running.flagIllcmd)).map (fun t => (t.status.word, t.ch0, t.rawIn)) =
      some (0, Channel.reset, 512) := by decide

/-! ### Witnesses: states and operands that meet the hypotheses of the statements, clause by clause -/

theorem test_witness_ResetLeavesStatedState :
    State.reset = State.reset ∧ perform .reset running = .next running.resetRegisters := ⟨rfl, rfl⟩
theorem test_witness_EncodeOfDecodeIsTheWord : decode 0x687F = .command (.setduty .ch1 127) := by decide
theorem test_witness_OpcodeMapIsAsStatedAndDisjoint :
    rowSmooth ∈ opcodeMap ∧ (0x33FF#16) &&& rowSmooth.mask = rowSmooth.pattern := by decide
theorem test_witness_IllegalWordsAreExactlyThoseOfNoRow :
    (0x00011000#32).extractLsb' 16 16 ≠ 0#16 ∧ (0x00007000#32).extractLsb' 16 16 = 0#16 ∧
    (0x00007000#32).extractLsb' 12 4 = 7#4 ∧ (0x00008000#32).extractLsb' 12 4 = 8#4 ∧
    (0x00000FFF#32).extractLsb' 12 4 = 0#4 ∧ decode 0x00008000 = .illegal .undefinedOp ∧
    decode 0x00000FFF = .illegal .undefinedOp ∧ decode 0x7001 = .illegal .unusedField := by decide
theorem test_witness_StepRunsTheDecodedCommand :
    (waiting idle (.write 0 0x1000)).pending = [.write 0#4 0x1000#32] ∧ decode 0x1000 = .command .init := by decide
theorem test_witness_StepPerformsTheOldestAccess :
    idle.pending = [] ∧ (waiting idle .reset).pending = [.reset] := by decide
theorem test_witness_CommandsAreRefusedByStateAndChannel :
    running.status.run = true ∧ idle.status.run = false ∧ runningFanOnly.active .ch1 = false ∧
    runningFanOnly.params.data.active.getLsbD 0 = true ∧ runningFanOnly.params.data.active.getLsbD 1 = false ∧
    idle.flagIllcmd = { idle with status := { idle.status with illcmd := true } } := by decide
/-- (a), (b), (c) for either state, (d), and a write without a cause, the flag clear and already set. -/
theorem test_witness_IllcmdIsSetExactlyByItsFourCauses :
    (0x00017000#32).extractLsb' 16 16 ≠ 0#16 ∧
    (∀ r ∈ opcodeMap, (0x1001#32).extractLsb' 0 16 &&& r.mask ≠ r.pattern) ∧
    (decode 0x1000 = .command .init ∧ running.status.run = true) ∧
    (decode 0x4000 = .command .estim ∧ idle.status.run = false) ∧
    (decode 0x5800 = .command (.interp .ch1) ∧ runningFanOnly.active .ch1 = false) ∧
    perform (.write 0#4 0x7000#32) running = .next (tickEffect running) ∧
    (tickEffect running).status.illcmd = running.status.illcmd ∧
    (tickEffect running.flagIllcmd).status.illcmd = true :=
  ⟨by decide, by decide, by decide, by decide, by decide, rfl, by decide, by decide⟩
theorem test_witness_PcterrIsSetExactlyByAnExcessivePercentage :
    running.status.run = true ∧ running.active .ch1 = true ∧ 100 < (101#7).toNat ∧
    running.status.pcterr = false ∧ running.flagPcterr.status.pcterr = true ∧
    step (waiting running (.write 0 0x6865)) = .next running.flagPcterr :=
  ⟨by decide, by decide, by decide, by decide, by decide, rfl⟩
theorem test_witness_SmoothWritesTheNewAverage : running.status.run = true ∧ idle.status.run = false := by decide
theorem test_witness_SmoothingKeepsTheAverageInRange :
    (4190208#32).toNat ≤ 4190208 ∧ running.avg.toNat ≤ 4190208 ∧
    step (waiting running (.write 0 0x33FF)) = .next { running with avg := smooth running.avg 1023 } :=
  ⟨by decide, by decide, rfl⟩
theorem test_witness_SmoothingConvergesToTheQuantizationFloor :
    (4190208#32).toNat ≤ 4190208 ∧ (0 : Int) < 1 ∧ (-6 : Int) ≤ -6 ∧ (-1 : Int) < 0 ∧ ((-5 : Int) ≤ -5 ∧ (-5 : Int) ≤ 0) ∧
    ((4190208#32).toNat ≤ 4190208 ∧ (1023#10).toNat * 4096 ≤ (4190208#32).toNat) ∧
    (4190207#32).toNat < (1023#10).toNat * 4096 := by decide
theorem test_witness_EstimWritesTheTemperature :
    running.status.run = true ∧ idle.status.run = false ∧ (2088951#32).toNat ≤ 4190208 ∧
    (2088969#32).toNat ≤ 4190208 := by decide
theorem test_witness_EstimateIsTheLinearFormula :
    (0#32).toNat ≤ 4190208 ∧ (4190208#32).toNat ≤ 4190208 := by decide
theorem test_witness_EstimateRangeSignAndLandmarks :
    (1064950#32).toNat ≤ 4190208 ∧ 1064951 ≤ (1064951#32).toNat ∧ (1064951#32).toNat ≤ 1064960 ∧
    (1064960#32).toNat ≤ 1064960 ∧ (4190208#32).toNat ≤ 4190208 := by decide
theorem test_witness_InterpWritesTheInterpolatedDuty :
    running.status.run = true ∧ running.active .ch0 = true ∧ running.active .ch1 = true ∧
    ({ running with temp := .value 103219 } : State).temp = .value 103219#32 ∧ idle.status.run = false ∧
    runningFanOnly.active .ch1 = false := by decide
theorem test_witness_InterpWithoutTemperatureWritesAFreeDuty :
    running.status.run = true ∧ running.active .ch0 = true ∧ running.temp = .noValue := by decide
theorem test_witness_InterpFollowsTheIndexScan :
    (∀ r ∈ exFan, r.t.toInt ≤ 60) ∧ (exFan = ⟨0, 0⟩ :: exFan.tail ∧ (-1 : Int) < (0#16).toInt) ∧
    (exFan = [⟨0, 0⟩] ++ ⟨25, 10⟩ :: ⟨35, 30⟩ :: [⟨45, 60⟩, ⟨60, 100⟩] ∧
      (∀ r ∈ [⟨0, 0⟩] ++ [(⟨25, 10⟩ : Breakpoint)], r.t.toInt ≤ 25) ∧ (25 : Int) < (35#16).toInt) := by decide
theorem test_witness_InterpIsAPercentage :
    curveLengthOk exFan = true ∧ curveTempsRise exFan = true ∧ curveDutiesInRange exFan = true ∧
    [(⟨45, 60⟩ : Breakpoint), ⟨60, 100⟩] <:+: exFan ∧ (45#16).toInt ≤ 59 ∧ (59 : Int) < (60#16).toInt := by decide
theorem test_witness_InterpFitsItsDatapath :
    (0#7).toNat ≤ 100 ∧ (100#7).toNat ≤ 100 ∧ (0x8000#16).toInt ≤ -32768 ∧ (-32768 : Int) < (0x7FFF#16).toInt ∧
    (0 : Int) = ((0#7).toNat : Int) * ((0x7FFF#16).toInt - -32768) +
      ((100#7).toNat : Int) * (-32768 - (0x8000#16).toInt) := by decide
theorem test_witness_InterpIsMonotoneWithFloorAndCeiling :
    curveWf exFan = true ∧ exFan.getLast? = some ⟨60, 100⟩ ∧ (60#16).toInt ≤ 60 ∧ exFan.head? = some ⟨0, 0⟩ ∧
    (0 : Int) ≤ (0#16).toInt ∧ (59 : Int) ≤ 60 ∧ 3 + 1 < exFan.length ∧ exFan[3]? = some ⟨45, 60⟩ := by decide
theorem test_witness_SelectPicksTheFirstExceedingPrescaler :
    (1 : Nat) = (16000000#32).toNat / (25000#32).toNat / 510 ∧ 0 < (select 16000000 25000 .familyA).pidx ∧
    (prescalers .familyA)[0]? = some 1 ∧ (1 : Nat) < 1024 ∧
    1024 = (522240#32).toNat / (1#32).toNat / 510 ∧ 1024 ≤ 1024 ∧ 0 = (509#32).toNat / (1#32).toNat / 510 ∧
    32 = (16320#32).toNat / (1#32).toNat / 510 := by decide
theorem test_witness_SelectOverflowsExactlyFromTheBound :
    (640 : Nat) = (16000000#32).toNat / (25000#32).toNat ∧ 640 / 510 < 1024 ∧
    (522240 : Nat) = (522240#32).toNat / (1#32).toNat ∧ 1024 ≤ 522240 / 510 ∧
    (524288 : Nat) = (524288#32).toNat / (1#32).toNat ∧ 524288 ≤ 524288 := by decide
theorem test_witness_ConfigProgramsTheChannel :
    idle.status.run = false ∧ idle.active .ch1 = true ∧ running.status.run = true ∧
    idleFanOnly.active .ch1 = false ∧
    (⟨8, 1, 40⟩ : Selection) = select idle.params.data.cpuHz idle.params.data.targetHz idle.params.data.pset1 ∧
    (1#3).toNat = 1 ∧ (8#11).toNat = 8 := by decide
theorem test_witness_DutyTicksScalesThePercentage :
    (99#7).toNat ≤ 100 ∧ (99#7).toNat ≤ (100#7).toNat ∧ (100#7).toNat ≤ 100 ∧ (254#8).toNat ≤ (255#8).toNat := by
  decide
theorem test_witness_SetdutyDrivesTheCompareValue :
    running.status.run = true ∧ running.active .ch1 = true ∧ (running.chan .ch1).ttop = .value 40#8 ∧
    (100#7).toNat ≤ 100 ∧ 40#8 = BitVec.ofNat 8 ((40#8).toNat * (100#7).toNat / 100) ∧ 100 < (101#7).toNat ∧
    idle.status.run = false ∧ runningFanOnly.active .ch1 = false := by decide
theorem test_witness_SetdutyAndTickNeverReadAMissingTop :
    running.inv = true ∧ running.status.run = true ∧ running.active .ch1 = true ∧
    40#8 = BitVec.ofNat 8
      (select running.params.data.cpuHz running.params.data.targetHz running.params.data.pset1).topFull ∧
    (100#7).toNat ≤ 100 ∧ (running.chan .ch1).ttop = .value 40#8 ∧
    ({ running with ch0 := Channel.reset } : State).active .ch0 = true ∧
    (({ running with ch0 := Channel.reset } : State).chan .ch0).ttop = .noValue := by decide
theorem test_witness_InitConfiguresActiveChannelsAndRuns :
    ∃ (sel : Ch → Selection) (presc : Ch → Presc) (evs : Ch → List TimerEvent) (regs : Ch → Channel),
      sel .ch0 = select idleFanOnly.params.data.cpuHz idleFanOnly.params.data.targetHz
        idleFanOnly.params.data.pset0 ∧
      sel .ch1 = select idleFanOnly.params.data.cpuHz idleFanOnly.params.data.targetHz
        idleFanOnly.params.data.pset1 ∧
      (∀ c, (presc c).pidx.toNat = (sel c).pidx ∧ (presc c).div.toNat = (sel c).div) ∧
      (∀ c, evs c = if idleFanOnly.active c then
        [⟨c, .mode 1#1⟩, ⟨c, .presc (presc c)⟩, ⟨c, .top (BitVec.ofNat 8 (sel c).topFull)⟩] else []) ∧
      (∀ c, regs c = if idleFanOnly.active c then { idleFanOnly.chan c with
        tmode := 1#1, tpresc := .value (presc c), ttop := .value (BitVec.ofNat 8 (sel c).topFull) }
        else idleFanOnly.chan c) ∧
      idleFanOnly.status.run = false ∧ running.status.run = true :=
  ⟨channelSelection overflowParams, fun c => (channelSelection overflowParams c).presc, _, _, rfl, rfl,
    fun c => by cases c <;> decide, fun _ => rfl, fun _ => rfl, rfl, rfl⟩
theorem test_witness_TickRunsTheWholeLoop :
    (∀ c, running.active c = true → (running.chan c).ttop = .value 40#8) ∧ running.status.run = true ∧
    idle.status.run = false ∧ 2097152#32 = smooth running.avg running.rawIn ∧ 103219#32 = estimate 2097152#32 ∧
    10#7 = interp running.params.data.curve0 ((103219#32).toInt >>> (12 : Nat)) ∧
    10#7 = interp running.params.data.curve1 ((103219#32).toInt >>> (12 : Nat)) ∧
    (∀ _c : Ch, 4#8 = BitVec.ofNat 8 ((40#8).toNat * (10#7).toNat / 100)) := by
  refine ⟨?_, by decide, by decide, by decide, by decide, by decide, by decide, fun _ => by decide⟩
  intro c
  cases c <;> decide
theorem test_witness_TickEqualsTheUnitCommands :
    running.status.run = true ∧ running.active .ch0 = true ∧ running.active .ch1 = true := by decide
theorem test_witness_TickHasNoMemoryBeyondTheAverage :
    ∃ u : State, u.temp ≠ running.temp ∧ running.status.run = true ∧ u.status.run = true ∧ running.avg = u.avg ∧
      running.params = u.params ∧ running.rawIn = u.rawIn ∧
      (∀ c, running.active c = true → ∃ v, (running.chan c).ttop = .value v ∧ (u.chan c).ttop = .value v) ∧
      (∃ t, exec .tick running = .next t) ∧ ∃ t, exec .tick u = .next t :=
  ⟨{ running with temp := .value 0 }, by decide, by decide, by decide, by decide, by decide, by decide,
    fun c _ => by cases c <;> exact ⟨_, rfl, rfl⟩, ⟨_, rfl⟩, ⟨_, rfl⟩⟩
theorem test_witness_OnlyTickReadsTheSensor :
    Instr.estim ≠ .tick ∧ idle.status.run = false ∧ exec .estim running = .next (estimEffect running) ∧
    exec .tick idle = .next idle.flagIllcmd := ⟨by decide, by decide, rfl, rfl⟩
theorem test_witness_EveryStepKeepsTheInvariant :
    running.inv = true ∧ step (waiting running (.write 0 0x7000)) = .next (tickEffect running) :=
  ⟨by decide, rfl⟩
theorem test_witness_AdapterRegistersMirrorTheTimerWrites :
    (configure .ch1 idle).mirrored = true ∧ step (waiting idle (.write 0 0x2800)) = .next (configure .ch1 idle) :=
  ⟨by decide, rfl⟩
theorem test_witness_StickyFlagsStayAndAreNeverRead :
    running.flagIllcmd.status.illcmd = true ∧ running.flagPcterr.status.pcterr = true ∧
    (running.flagTopovf .ch1 true).status.topovf .ch1 = true ∧ running.flagIllcmd.status.run = running.status.run ∧
    exec .tick running = .next (tickEffect running) ∧
    step (waiting running (.write 0 0x7000)) = .next (tickEffect running) :=
  ⟨by decide, by decide, by decide, by decide, rfl, rfl⟩
theorem test_witness_OnlyInitEntersRunningAndOnlyResetLeaves :
    (idle.status.run = false ∧ step (waiting idle (.write 0 0x1000)) = .next (initEffect idle) ∧
      (initEffect idle).status.run = true) ∧
    (running.status.run = true ∧ step (waiting running .reset) = .next running.resetRegisters ∧
      running.resetRegisters.status.run = false) :=
  ⟨⟨by decide, rfl, by decide⟩, by decide, rfl, by decide⟩
theorem test_witness_SetupIsImmutableInRunning :
    running.status.run = true ∧ exec .tick running = .next (tickEffect running) := ⟨by decide, rfl⟩
theorem test_witness_ChannelCommandsTouchOnlyTheirChannel :
    Ch.ch1 ≠ .ch0 ∧ exec (.config .ch0) idle = .next (configure .ch0 idle) ∧
    exec (.setduty .ch0 100) running = .next (setDuty .ch0 100 running) := ⟨by decide, rfl, rfl⟩
theorem test_witness_RegistersAreWrittenOnlyByTheirCommands :
    exec .tick running = .next (tickEffect running) ∧ (tickEffect running).temp ≠ running.temp ∧
    ((tickEffect running).chan .ch1).duty ≠ (running.chan .ch1).duty ∧
    ((tickEffect running).chan .ch1).tcmp ≠ (running.chan .ch1).tcmp ∧
    exec (.smooth 0) running = .next (smoothEffect 0 running) ∧ (smoothEffect 0 running).avg ≠ running.avg ∧
    exec (.config .ch0) idle = .next (configure .ch0 idle) ∧
    ((configure .ch0 idle).chan .ch0).ttop ≠ (idle.chan .ch0).ttop :=
  ⟨rfl, by decide, by decide, by decide, rfl, by decide, rfl, by decide⟩
theorem test_witness_RegisterMapReadsTheRegisters :
    (running.chan .ch1).ttop = .value 40#8 ∧ (running.chan .ch1).tpresc = .value ⟨1, 8⟩ ∧
    ((tickEffect running).chan .ch1).duty = .value 10#7 ∧ ((tickEffect running).chan .ch0).tcmp = .value 4#8 ∧
    (idle.chan .ch1).ttop = .noValue ∧ (idle.chan .ch1).tpresc = .noValue ∧ (idle.chan .ch1).duty = .noValue ∧
    (idle.chan .ch0).tcmp = .noValue := by decide
theorem test_witness_ReadingReturnsTheWordAndChangesNothing :
    idle.register 2 = .value 0x00200000 ∧ idle.register 3 = .noValue := by decide
theorem test_witness_OnlyWritesToCmdHaveAnEffect :
    (0xF#4) ≠ 0#4 ∧ (0x00017000#32).extractLsb' 16 16 ≠ 0#16 ∧ (0x7000#32).extractLsb' 16 16 = 0#16 ∧
    decodeHalf ((0x7000#32).extractLsb' 0 16) = some .tick ∧
    perform (.read 2) running = .next (regRead 2 running) ∧
    perform (.present 700) running = .next { running with rawIn := 700 } :=
  ⟨by decide, by decide, by decide, by decide, rfl, rfl⟩
theorem test_witness_FaultOutIsTheOrOfTheFlags :
    running.flagPcterr.faultOut = true ∧
    step (waiting running.flagPcterr (.write 0 0x7000)) = .next (tickEffect running.flagPcterr) ∧
    step (waiting running.flagPcterr .reset) = .next running.flagPcterr.resetRegisters := ⟨by decide, rfl, rfl⟩
theorem test_witness_ParametersNeverChange :
    step (waiting idle (.write 0 0x1000)) = .next (initEffect idle) := rfl
/-- A read; a step with nothing waiting; a command on one active and one inactive channel, with the values its events carry; a
step of each kind of access: a command, an access that adds nothing, a write abandoned by reset. -/
theorem test_witness_EventsAreOnlyAppended :
    (step (waiting running (.write 0 0x7000)) = .next (tickEffect running) ∧
      perform (.read 2) running = .next (regRead 2 running)) ∧
    (∃ configured sent : Ch → List TimerEvent,
      exec (.config .ch0) idleFanOnly = .next (configure .ch0 idleFanOnly) ∧
      (∀ c, idleFanOnly.active c = false → configured c = [] ∧ sent c = []) ∧
      (∀ c p v, idleFanOnly.active c = true → ((configure .ch0 idleFanOnly).chan c).tpresc = .value p →
        ((configure .ch0 idleFanOnly).chan c).ttop = .value v →
        configured c = [⟨c, .mode 1#1⟩, ⟨c, .presc p⟩, ⟨c, .top v⟩]) ∧
      ∀ c v, idleFanOnly.active c = true → ((configure .ch0 idleFanOnly).chan c).tcmp = .value v →
        sent c = [⟨c, .cmp v⟩]) ∧
    (idle.pending = [] ∧ step idle = .next idle) ∧
    decode 0x7000 = .command .tick ∧ step (waiting running (.present 700)) = .next { running with rawIn := 700 } ∧
    step (waiting running (.writeAborted 0 0x7000)) = .next (abandoned running (tickEffect running)) := by
  refine ⟨⟨rfl, rfl⟩, ⟨fun c => if c = .ch0 then [⟨c, .mode 1⟩, ⟨c, .presc ⟨4, 1024⟩⟩, ⟨c, .top 4⟩] else [],
    fun _ => [], rfl, ?_, ?_, ?_⟩, ⟨rfl, rfl⟩, by decide, rfl, rfl⟩
  · intro c hc
    cases c
    · exact absurd hc (by decide)
    · exact ⟨rfl, rfl⟩
  · intro c p v hc hp hv
    cases c
    · cases hp
      cases hv
      rfl
    · exact absurd hc (by decide)
  · intro c v hc hv
    cases c
    · cases hv
    · exact absurd hc (by decide)
theorem test_witness_SensorPortPresentsTheSampleOfTheNextTick : running.status.run = true := by decide

end Sys2Proof.Tests
end

/-! ### The OPEN parameters (00_scope.md R7, 70_reset_and_hazards.md R186) -/

namespace Sys2Proof.Machine

theorem whenActive_params {c : Ch} {f : State → State} (hf : ∀ u, (f u).params = u.params) (s : State) :
    (whenActive c f s).params = s.params :=
  whenActive_keeps (P := fun u => u.params = s.params) rfl fun _ => hf s

@[simp] theorem tickChannel_params (c : Ch) (t : Int) (s : State) : (tickChannel c t s).params = s.params := by
  simp [tickChannel]

@[simp] theorem initEffect_params (s : State) : (initEffect s).params = s.params := by
  simp [initEffect, whenActive_params]

@[simp] theorem tickEffect_params (s : State) : (tickEffect s).params = s.params := by
  simp [tickEffect, whenActive_params]

@[simp] theorem interpEffect_params (c : Ch) (s : State) : (interpEffect c s).params = s.params := by
  cases h : s.temp with
  | value w => simp [interpEffect_of_value h]
  | noValue => simp [interpEffect_of_noValue h]

@[simp] theorem setdutyEffect_params (c : Ch) (pct : Percent) (s : State) :
    (setdutyEffect c pct s).params = s.params := by
  obtain h | h := le_or_gt pct.toNat 100
  · simp [setdutyEffect_of_ok h]
  · simp [setdutyEffect_of_excess h]

/-- No command's effect writes a parameter. -/
@[simp] theorem effectOf_params (i : Instr) (s : State) : (effectOf i s).params = s.params := by
  cases i with
  | init => exact initEffect_params s
  | config c => exact configure_params c s
  | smooth raw => exact writeAvg_params _ s
  | estim => exact writeTemp_params _ s
  | interp c => exact interpEffect_params c s
  | setduty c pct => exact setdutyEffect_params c pct s
  | tick => exact tickEffect_params s

/-- A write abandoned by reset keeps the parameters of the state it began in. -/
@[simp] theorem abandoned_params (s t : State) : (abandoned s t).params = s.params := rfl

/-- Settles O52: "has these parameters" is kept by each thing a step can do, so by a step (`step_keeps`). -/
theorem parametersNeverChange : Obligations.ParametersNeverChange := by
  intro s t hs
  refine step_keeps (P := fun u => u.params = s.params) hs rfl ?accept ?present ?drawn ?returned ?reset ?abandon
    ?illcmd ?effect
  case accept => exact fun rest u hu => (accepted_params rest u).trans hu
  case present => exact fun _ _ hu => hu
  case drawn => exact fun u hu => (drawn_params u).trans hu
  case returned => exact fun idx w u hu => (returned_params idx w u).trans hu
  case reset => exact fun u hu => (resetRegisters_params u).trans hu
  case abandon => exact fun u v hu _ => (abandoned_params u v).trans hu
  case illcmd => exact fun u hu => (flagIllcmd_params u).trans hu
  case effect => exact fun i u hu _ => (effectOf_params i u).trans hu

end Sys2Proof.Machine

namespace Sys2Proof.Machine

/-! ### Ranges of what the commands compute (R95, R103, R113, R139) -/

theorem smooth_toNat {a : Word} (h : a.toNat ≤ 4190208) (r : RawSample) :
    (smooth a r).toNat = a.toNat * 3277 / 4096 + r.toNat * 819 := by
  have hr : r.toNat < 1024 := r.isLt
  have ha : a.toInt = a.toNat := BitVec.toInt_eq_toNat_of_lt (by omega)
  have hint : asr12 (a.toInt * alphaPrev) + (r.toNat : Int) * alphaRaw =
      (a.toNat * 3277 / 4096 + r.toNat * 819 : Nat) := by
    rw [ha]
    simp [asr12, alphaPrev, alphaRaw]
  rw [smooth, hint, BitVec.ofInt_natCast, BitVec.toNat_ofNat, Nat.mod_eq_of_lt (by omega)]

theorem smooth_toNat_le {a : Word} (h : a.toNat ≤ 4190208) (r : RawSample) :
    (smooth a r).toNat ≤ 4190208 := by
  have hr : r.toNat < 1024 := r.isLt
  rw [smooth_toNat h]
  omega

/-- The quotient of R102 stays within its landmarks on the range of `AVG` (R103). -/
theorem estimateQuotient_bounds {n : Nat} (h : n ≤ 4190208) :
    -208896 ≤ ((2088960 : Int) - n).tdiv (-10) ∧ ((2088960 : Int) - n).tdiv (-10) ≤ 210124 := by
  rw [Int.tdiv_neg, Int.tdiv_eq_ediv, Int.sign_eq_one_of_pos (by decide)]
  split <;> omega

theorem estimate_toInt {a : Word} (h : a.toNat ≤ 4190208) :
    (estimate a).toInt = ((2088960 : Int) - a.toNat).tdiv (-10) + 102400 := by
  have hsub : (fx calK - a).toInt = 2088960 - a.toNat := by
    have hk : (fx calK).toInt = 2088960 := by decide
    rw [BitVec.toInt_sub, hk, BitVec.toInt_eq_toNat_of_lt (by omega)]
    exact Int.bmod_eq_of_le (by omega) (by omega)
  have hadd : fx tRef = BitVec.ofInt 32 102400 := by decide
  obtain ⟨hlo, hhi⟩ := estimateQuotient_bounds h
  rw [estimate, hsub, hadd, ← BitVec.ofInt_add]
  exact BitVec.toInt_ofInt_eq_self (by decide) (by simp only [slopeDiv, divT]; omega)
    (by simp only [slopeDiv, divT]; omega)

theorem estimate_inRange {a : Word} (h : a.toNat ≤ 4190208) : tempInRange (estimate a) = true := by
  obtain ⟨hlo, hhi⟩ := estimateQuotient_bounds h
  simp only [tempInRange, estimate_toInt h, Bool.and_eq_true, decide_eq_true_eq]
  omega

/-- A mean of `a` and `b` with the weights `x` and `y`, rounded down, lies between them. -/
theorem weightedMean_bounds (a b : Int) {x y : Int} (hx : 0 ≤ x) (hy : 0 ≤ y) (hpos : 0 < x + y) :
    min a b ≤ (a * x + b * y) / (x + y) ∧ (a * x + b * y) / (x + y) ≤ max a b := by
  constructor
  · rw [Int.le_ediv_iff_mul_le hpos, mul_add]
    exact add_le_add (mul_le_mul_of_nonneg_right (min_le_left a b) hx)
      (mul_le_mul_of_nonneg_right (min_le_right a b) hy)
  · refine Int.ediv_le_of_le_mul hpos ?_
    rw [mul_add]
    exact add_le_add (mul_le_mul_of_nonneg_right (le_max_left a b) hx)
      (mul_le_mul_of_nonneg_right (le_max_right a b) hy)

/-- The duty between two rows lies between theirs (R95), so its 7 bits lose nothing. -/
theorem interpBetween_bounds {lo hi : Breakpoint} {t : Int} (hlo : lo.t.toInt ≤ t) (hhi : t < hi.t.toInt) :
    min lo.d.toNat hi.d.toNat ≤ (interpBetween lo hi t).toNat ∧
      (interpBetween lo hi t).toNat ≤ max lo.d.toNat hi.d.toNat := by
  have hmean := weightedMean_bounds lo.d.toNat hi.d.toNat (x := hi.t.toInt - t) (y := t - lo.t.toInt)
    (by omega) (by omega) (by omega)
  have hnum : 0 ≤ (lo.d.toNat : Int) * (hi.t.toInt - t) + (hi.d.toNat : Int) * (t - lo.t.toInt) :=
    add_nonneg (mul_nonneg (by omega) (by omega)) (mul_nonneg (by omega) (by omega))
  rw [interpBetween, divT, Int.tdiv_eq_ediv_of_nonneg hnum, BitVec.toNat_ofInt,
    ← sub_add_sub_cancel hi.t.toInt t lo.t.toInt]
  have := lo.d.isLt
  have := hi.d.isLt
  omega

/-- The scan of R93 goes on only from a row that does not exceed the temperature, as `interpBetween_bounds` needs it. -/
theorem interpFrom_toNat_le {rest : List Breakpoint} {t : Int} (hrest : ∀ r ∈ rest, r.d.toNat ≤ 100) :
    ∀ {lo : Breakpoint}, lo.d.toNat ≤ 100 → lo.t.toInt ≤ t → (interpFrom lo rest t).toNat ≤ 100 := by
  induction rest with
  | nil => exact fun _ _ => by simp [interpFrom]
  | cons hi rest ih =>
    intro lo hd ht
    have hhi : hi.d.toNat ≤ 100 := hrest hi (by simp)
    unfold interpFrom
    split
    · exact (interpBetween_bounds ht ‹_›).2.trans (max_le hd hhi)
    · exact ih (fun r hr => hrest r (by simp [hr])) hhi (by omega)

/-- The interpolated duty is a percentage (R95). -/
theorem interp_toNat_le {curve : List Breakpoint} (h : curveDutiesInRange curve = true) (t : Int) :
    (interp curve t).toNat ≤ 100 := by
  have hd : ∀ r ∈ curve, r.d.toNat ≤ 100 := by simpa [curveDutiesInRange] using h
  cases curve with
  | nil => simp [interp]
  | cons first rest =>
    simp only [interp]
    split
    · exact hd first (by simp)
    · exact interpFrom_toNat_le (fun r hr => hd r (by simp [hr])) (hd first (by simp)) (by omega)

theorem paramCurve_wf (p : Params) (c : Ch) : curveWf (paramCurve p c) = true := by
  have h := p.ok
  simp only [ParamData.wf, Bool.and_eq_true] at h
  obtain ⟨⟨_, hfan⟩, hpump⟩ := h
  cases c with
  | ch0 => exact hfan
  | ch1 => exact hpump

theorem curveWf_dutiesInRange {curve : List Breakpoint} (h : curveWf curve = true) :
    curveDutiesInRange curve = true := by
  simp only [curveWf, Bool.and_eq_true] at h
  obtain ⟨⟨⟨_, hduties⟩, _⟩, _⟩ := h
  exact hduties

theorem interp_paramCurve_le (p : Params) (c : Ch) (t : Int) : (interp (paramCurve p c) t).toNat ≤ 100 :=
  interp_toNat_le (curveWf_dutiesInRange (paramCurve_wf p c)) t

theorem dutyTicks_le {pct : Percent} (h : pct.toNat ≤ 100) (top : BitVec 8) :
    (dutyTicks top pct).toNat ≤ top.toNat := by
  have hq : top.toNat * pct.toNat / 100 ≤ top.toNat :=
    Nat.div_le_of_le_mul (by rw [Nat.mul_comm]; exact Nat.mul_le_mul_right _ h)
  rw [dutyTicks, BitVec.toNat_ofNat]
  exact (Nat.mod_le _ _).trans hq

/-! ### What each command writes (10_state.md section 1) -/

@[simp] theorem topovf_update_pcterr (t : Status) (b : Bool) (c : Ch) :
    Status.topovf { t with pcterr := b } c = t.topovf c := by cases c <;> rfl

@[simp] theorem topovf_update_run (t : Status) (b : Bool) (c : Ch) :
    Status.topovf { t with run := b } c = t.topovf c := by cases c <;> rfl

/-- What an effect keeps, it keeps when it is done for an active channel only. -/
theorem whenActive_field {α : Type} (g : State → α) {c : Ch} {f : State → State} (hf : ∀ u, g (f u) = g u)
    (s : State) : g (whenActive c f s) = g s := whenActive_keeps (P := fun u => g u = g s) rfl fun _ => hf s

theorem whenActive_configure_chan (c k : Ch) (s : State) : (whenActive k (configure k) s).chan c =
    if c = k ∧ s.active c = true then (configure c s).chan c else s.chan c := by
  by_cases hk : c = k
  · subst hk
    by_cases ha : s.active c = true <;> simp [whenActive, ha]
  · simp [hk, whenActive_field (·.chan c) fun u => configure_chan_other k c u hk]

theorem whenActive_configure_topovf (c k : Ch) (s : State) : (whenActive k (configure k) s).status.topovf c =
    if c = k ∧ s.active c = true then (configure c s).status.topovf c else s.status.topovf c := by
  by_cases hk : c = k
  · subst hk
    by_cases ha : s.active c = true <;> simp [whenActive, ha]
  · simp [hk, whenActive_field (·.status.topovf c) (f := configure k) fun u => by simp [hk]]

@[simp] theorem initEffect_avg (s : State) : (initEffect s).avg = fx mid := rfl

@[simp] theorem initEffect_run (s : State) : (initEffect s).status.run = true := rfl

@[simp] theorem initEffect_temp (s : State) : (initEffect s).temp = s.temp := by
  simp [initEffect, whenActive_field State.temp]

/-- `INIT` configures a channel if it is active, whatever it does to the other one. -/
theorem initEffect_chan (c : Ch) (s : State) :
    (initEffect s).chan c = if s.active c = true then (configure c s).chan c else s.chan c := by
  cases c <;> simp [initEffect, whenActive_configure_chan, whenActive_field (State.active · Ch.ch1),
    whenActive_params]

theorem initEffect_topovf (c : Ch) (s : State) : (initEffect s).status.topovf c =
    if s.active c = true then (configure c s).status.topovf c else s.status.topovf c := by
  cases c <;> simp [initEffect, whenActive_configure_topovf, whenActive_field (State.active · Ch.ch1),
    whenActive_params]

/-- The setup of a channel: mode, prescaler and TOP (10_state.md R28). -/
def Channel.setup (x : Channel) : BitVec 1 × Held Presc × Held (BitVec 8) := (x.tmode, x.tpresc, x.ttop)

theorem setup_eq_iff (x y : Channel) :
    x.setup = y.setup ↔ x.tmode = y.tmode ∧ x.tpresc = y.tpresc ∧ x.ttop = y.ttop := by
  simp [Channel.setup]

/-- A part of the registers that a change of channel `c` keeps on `c` it keeps on both, if it leaves the other alone. -/
theorem chan_field {α : Type} (g : Channel → α) {c : Ch} {s t : State} (hself : g (t.chan c) = g (s.chan c))
    (hother : ∀ k, k ≠ c → t.chan k = s.chan k) (k : Ch) : g (t.chan k) = g (s.chan k) := by
  by_cases hk : k = c
  · exact hk ▸ hself
  · rw [hother k hk]

@[simp] theorem writeDuty_setup (c k : Ch) (v : Percent) (s : State) :
    ((s.writeDuty c v).chan k).setup = (s.chan k).setup :=
  chan_field Channel.setup (by simp [Channel.setup]) (fun j hj => writeDuty_chan_other c j v s hj) k

@[simp] theorem writeDuty_tcmp (c k : Ch) (v : Percent) (s : State) :
    ((s.writeDuty c v).chan k).tcmp = (s.chan k).tcmp :=
  chan_field Channel.tcmp (by simp) (fun j hj => writeDuty_chan_other c j v s hj) k

@[simp] theorem setDuty_setup (c k : Ch) (pct : Percent) (s : State) :
    ((setDuty c pct s).chan k).setup = (s.chan k).setup :=
  chan_field Channel.setup (by simp [Channel.setup]) (fun j hj => setDuty_chan_other c j pct s hj) k

@[simp] theorem setDuty_duty (c k : Ch) (pct : Percent) (s : State) :
    ((setDuty c pct s).chan k).duty = (s.chan k).duty :=
  chan_field Channel.duty (by simp) (fun j hj => setDuty_chan_other c j pct s hj) k

@[simp] theorem configure_duty (c k : Ch) (s : State) : ((configure c s).chan k).duty = (s.chan k).duty :=
  chan_field Channel.duty (by simp) (fun j hj => configure_chan_other c j s hj) k

@[simp] theorem configure_tcmp (c k : Ch) (s : State) : ((configure c s).chan k).tcmp = (s.chan k).tcmp :=
  chan_field Channel.tcmp (by simp) (fun j hj => configure_chan_other c j s hj) k

@[simp] theorem initEffect_duty (c : Ch) (s : State) : ((initEffect s).chan c).duty = (s.chan c).duty := by
  rw [initEffect_chan]
  split <;> simp

@[simp] theorem initEffect_tcmp (c : Ch) (s : State) : ((initEffect s).chan c).tcmp = (s.chan c).tcmp := by
  rw [initEffect_chan]
  split <;> simp

/-- All that `INTERP` can do: it writes some duty, perhaps after a draw. -/
theorem interpEffect_cases (c : Ch) (s : State) :
    ∃ v, interpEffect c s = s.writeDuty c v ∨ interpEffect c s = s.drawn.writeDuty c v := by
  cases h : s.temp with
  | value w => exact ⟨_, .inl (interpEffect_of_value h c)⟩
  | noValue => exact ⟨_, .inr (interpEffect_of_noValue h c)⟩

@[simp] theorem interpEffect_avg (c : Ch) (s : State) : (interpEffect c s).avg = s.avg := by
  obtain ⟨v, h | h⟩ := interpEffect_cases c s <;> simp [h]
@[simp] theorem interpEffect_temp (c : Ch) (s : State) : (interpEffect c s).temp = s.temp := by
  obtain ⟨v, h | h⟩ := interpEffect_cases c s <;> simp [h]
@[simp] theorem interpEffect_status (c : Ch) (s : State) : (interpEffect c s).status = s.status := by
  obtain ⟨v, h | h⟩ := interpEffect_cases c s <;> simp [h]
@[simp] theorem interpEffect_chan_other (c k : Ch) (s : State) (hk : k ≠ c) :
    (interpEffect c s).chan k = s.chan k := by
  obtain ⟨v, h | h⟩ := interpEffect_cases c s <;> simp [h, hk]
@[simp] theorem interpEffect_setup (c k : Ch) (s : State) :
    ((interpEffect c s).chan k).setup = (s.chan k).setup := by
  obtain ⟨v, h | h⟩ := interpEffect_cases c s <;> simp [h]
@[simp] theorem interpEffect_tcmp (c k : Ch) (s : State) : ((interpEffect c s).chan k).tcmp = (s.chan k).tcmp := by
  obtain ⟨v, h | h⟩ := interpEffect_cases c s <;> simp [h]

/-- All that `SETDUTY` can do once it is legal. -/
theorem setdutyEffect_cases (c : Ch) (pct : Percent) (s : State) :
    setdutyEffect c pct s = setDuty c pct s ∨ setdutyEffect c pct s = s.flagPcterr := by
  obtain hp | hp := le_or_gt pct.toNat 100
  · exact .inl (setdutyEffect_of_ok hp c s)
  · exact .inr (setdutyEffect_of_excess hp c s)

@[simp] theorem setdutyEffect_avg (c : Ch) (pct : Percent) (s : State) : (setdutyEffect c pct s).avg = s.avg := by
  obtain h | h := setdutyEffect_cases c pct s <;> simp [h]
@[simp] theorem setdutyEffect_temp (c : Ch) (pct : Percent) (s : State) : (setdutyEffect c pct s).temp = s.temp := by
  obtain h | h := setdutyEffect_cases c pct s <;> simp [h]
@[simp] theorem setdutyEffect_run (c : Ch) (pct : Percent) (s : State) :
    (setdutyEffect c pct s).status.run = s.status.run := by
  obtain h | h := setdutyEffect_cases c pct s <;> simp [h]
@[simp] theorem setdutyEffect_chan_other (c k : Ch) (pct : Percent) (s : State) (hk : k ≠ c) :
    (setdutyEffect c pct s).chan k = s.chan k := by
  obtain h | h := setdutyEffect_cases c pct s <;> simp [h, hk]
@[simp] theorem setdutyEffect_setup (c k : Ch) (pct : Percent) (s : State) :
    ((setdutyEffect c pct s).chan k).setup = (s.chan k).setup := by
  obtain h | h := setdutyEffect_cases c pct s <;> simp [h]
@[simp] theorem setdutyEffect_duty (c k : Ch) (pct : Percent) (s : State) :
    ((setdutyEffect c pct s).chan k).duty = (s.chan k).duty := by
  obtain h | h := setdutyEffect_cases c pct s <;> simp [h]

/-- What both channels' parts of a tick keep, `TICK` keeps but for the new `AVG` and `TEMP`. -/
theorem tickEffect_field {α : Type} (g : State → α) (hg : ∀ c t u, g (tickChannel c t u) = g u) (s : State) :
    g (tickEffect s) = g ((s.writeAvg (smooth s.avg s.rawIn)).writeTemp (estimate (smooth s.avg s.rawIn))) :=
  (whenActive_field g (hg .ch1 _) _).trans (whenActive_field g (hg .ch0 _) _)

@[simp] theorem tickEffect_run (s : State) : (tickEffect s).status.run = s.status.run :=
  tickEffect_field (·.status.run) (fun c t u => by simp [tickChannel]) s

@[simp] theorem tickEffect_setup (c : Ch) (s : State) : ((tickEffect s).chan c).setup = (s.chan c).setup :=
  (tickEffect_field (fun u => (u.chan c).setup) (fun k t u => by simp [tickChannel]) s).trans (by simp)

/-! ### One channel of the invariant -/

/-- The clauses of `channelInv`, by name. -/
structure ChannelOk (p : Params) (run ovf : Bool) (c : Ch) (x : Channel) : Prop where
  duty : x.duty.all percentOk = true
  cmp : x.tcmp.all (cmpWithinTop x.ttop) = true
  inactive : paramActive p c = false → x = Channel.reset
  active : run = true → paramActive p c = true → x.tmode = 1#1
  configured : channelConfigured p ovf c x = true
  fresh : run = false → x.duty = .noValue ∧ x.tcmp = .noValue

theorem channelInv_iff (p : Params) (run ovf : Bool) (c : Ch) (x : Channel) :
    channelInv p run ovf c x = true ↔ ChannelOk p run ovf c x := by
  constructor
  · intro h
    simp only [channelInv, Bool.and_eq_true, Bool.or_eq_true, decide_eq_true_eq, Bool.not_eq_true'] at h
    obtain ⟨⟨⟨⟨⟨duty, cmp⟩, inactive⟩, active⟩, configured⟩, fresh⟩ := h
    exact ⟨duty, cmp, fun hn => inactive.resolve_left (by simp [hn]),
      fun hr ha => active.resolve_left (by simp [hr, ha]), configured, fun hr => fresh.resolve_left (by simp [hr])⟩
  · rintro ⟨duty, cmp, inactive, active, configured, fresh⟩
    have hmode : (run = false ∨ paramActive p c = false) ∨ x.tmode = 1#1 := or_iff_not_imp_left.2 fun hn => by
      obtain ⟨hr, ha⟩ : run = true ∧ paramActive p c = true := by simpa using hn
      exact active hr ha
    simp only [channelInv, Bool.and_eq_true, Bool.or_eq_true, decide_eq_true_eq, Bool.not_eq_true']
    exact ⟨⟨⟨⟨⟨duty, cmp⟩, (Bool.eq_false_or_eq_true _).imp_right inactive⟩, hmode⟩, configured⟩,
      (Bool.eq_false_or_eq_true _).imp_right fresh⟩

theorem channelConfigured_of_mode {p : Params} {ovf : Bool} {c : Ch} {x : Channel} (h : x.tmode = 1#1) :
    channelConfigured p ovf c x = true ↔ x.tpresc = .value (channelSelection p c).presc ∧
      x.ttop = .value (channelSelection p c).top ∧ ovf = (channelSelection p c).overflow := by
  rw [channelConfigured, if_pos h]
  simp only [Bool.and_eq_true, decide_eq_true_eq, and_assoc]

theorem channelConfigured_of_not_mode {p : Params} {ovf : Bool} {c : Ch} {x : Channel} (h : x.tmode ≠ 1#1) :
    channelConfigured p ovf c x = true ↔ x.tpresc = .noValue ∧ x.ttop = .noValue ∧ ovf = false := by
  simp [channelConfigured, h, and_assoc]

namespace ChannelOk

variable {p : Params} {run ovf : Bool} {c : Ch} {x : Channel}

theorem reset (p : Params) (c : Ch) : ChannelOk p false false c Channel.reset where
  duty := rfl
  cmp := rfl
  inactive _ := rfl
  active h := absurd h (by decide)
  configured := (channelConfigured_of_not_mode (by decide)).2 ⟨rfl, rfl, rfl⟩
  fresh _ := ⟨rfl, rfl⟩

/-- Before Running a channel may be configured, also a second time. -/
theorem configure (h : ChannelOk p false ovf c x) (ha : paramActive p c = true) :
    ChannelOk p false (ovf || (channelSelection p c).overflow) c
      { x with tmode := 1#1, tpresc := .value (channelSelection p c).presc,
               ttop := .value (channelSelection p c).top } where
  duty := h.duty
  cmp := by simp [(h.fresh rfl).2, Held.all]
  inactive hn := absurd (hn.symm.trans ha) (by decide)
  active _ _ := rfl
  configured := by
    refine (channelConfigured_of_mode rfl).2 ⟨rfl, rfl, ?_⟩
    by_cases hm : x.tmode = 1#1
    · obtain ⟨_, _, hovf⟩ := (channelConfigured_of_mode hm).1 h.configured
      rw [hovf, Bool.or_self]
    · obtain ⟨_, _, hovf⟩ := (channelConfigured_of_not_mode hm).1 h.configured
      rw [hovf, Bool.false_or]
  fresh := h.fresh

/-- A channel configured if it is active may enter Running. -/
theorem startRun (h : ChannelOk p false ovf c x) (hm : paramActive p c = true → x.tmode = 1#1) :
    ChannelOk p true ovf c x :=
  { h with active := fun _ => hm, fresh := fun hr => absurd hr (by decide) }

theorem ttop_eq (h : ChannelOk p true ovf c x) (ha : paramActive p c = true) :
    x.ttop = .value (channelSelection p c).top := by
  obtain ⟨_, htop, _⟩ := (channelConfigured_of_mode (h.active rfl ha)).1 h.configured
  exact htop

theorem writeDuty (h : ChannelOk p true ovf c x) (ha : paramActive p c = true) {v : Percent} (hv : v.toNat ≤ 100) :
    ChannelOk p true ovf c { x with duty := .value v } where
  duty := (percentOk_iff v).2 hv
  cmp := h.cmp
  inactive hn := absurd (hn.symm.trans ha) (by decide)
  active := h.active
  configured := h.configured
  fresh hr := absurd hr (by decide)

theorem writeCmp (h : ChannelOk p true ovf c x) (ha : paramActive p c = true) {v : BitVec 8}
    (hv : v.toNat ≤ (channelSelection p c).top.toNat) : ChannelOk p true ovf c { x with tcmp := .value v } where
  duty := h.duty
  cmp := by simpa [h.ttop_eq ha, Held.all, cmpWithinTop] using hv
  inactive hn := absurd (hn.symm.trans ha) (by decide)
  active := h.active
  configured := h.configured
  fresh hr := absurd hr (by decide)

end ChannelOk

/-! ### The invariant in Running -/

/-- The invariant together with `RUN = 1`, clause by clause. -/
structure State.RunningOk (s : State) : Prop where
  run : s.status.run = true
  avg : s.avg.toNat ≤ 4190208
  temp : s.temp.all tempInRange = true
  chan : ∀ c, ChannelOk s.params true (s.status.topovf c) c (s.chan c)

theorem State.runningOk_iff (s : State) : s.RunningOk ↔ s.inv = true ∧ s.status.run = true := by
  rw [inv_iff]
  constructor
  · intro ⟨run, avg, temp, chan⟩
    exact ⟨⟨avg, temp, .inl run, fun c => (channelInv_iff ..).2 (run ▸ chan c)⟩, run⟩
  · intro ⟨⟨avg, temp, _, chan⟩, run⟩
    exact ⟨run, avg, temp, fun c => (channelInv_iff ..).1 (run ▸ chan c)⟩

namespace State.RunningOk

variable {s : State} {c : Ch}

theorem inv (h : s.RunningOk) : s.inv = true := ((runningOk_iff s).1 h).1

/-- TOP of an active channel in Running is the one `INIT` selected (10_state.md R30). -/
theorem ttop_eq (h : s.RunningOk) (ha : s.active c = true) :
    (s.chan c).ttop = .value (channelSelection s.params c).top := (h.chan c).ttop_eq ha

theorem drawn (h : s.RunningOk) : s.drawn.RunningOk := ⟨h.run, h.avg, h.temp, by simpa using h.chan⟩

theorem flagPcterr (h : s.RunningOk) : s.flagPcterr.RunningOk := ⟨h.run, h.avg, h.temp, by simpa using h.chan⟩

theorem writeAvg (h : s.RunningOk) {v : Word} (hv : v.toNat ≤ 4190208) : (s.writeAvg v).RunningOk :=
  ⟨h.run, hv, h.temp, by simpa using h.chan⟩

theorem writeTemp (h : s.RunningOk) {v : Word} (hv : tempInRange v = true) : (s.writeTemp v).RunningOk :=
  ⟨h.run, h.avg, hv, by simpa using h.chan⟩

/-- An operation on one channel only has to keep that channel's part. -/
theorem of_chan {t : State} (h : s.RunningOk) (havg : t.avg = s.avg) (htemp : t.temp = s.temp)
    (hstatus : t.status = s.status) (hparams : t.params = s.params) (hother : ∀ k, k ≠ c → t.chan k = s.chan k)
    (hself : ChannelOk s.params true (s.status.topovf c) c (t.chan c)) : t.RunningOk where
  run := hstatus ▸ h.run
  avg := havg ▸ h.avg
  temp := htemp ▸ h.temp
  chan k := by
    rw [hstatus, hparams]
    by_cases hk : k = c
    · exact hk ▸ hself
    · exact hother k hk ▸ h.chan k

theorem writeDuty (h : s.RunningOk) (ha : s.active c = true) {v : Percent} (hv : v.toNat ≤ 100) :
    (s.writeDuty c v).RunningOk :=
  h.of_chan (c := c) rfl rfl rfl rfl (fun k hk => writeDuty_chan_other c k v s hk)
    (writeDuty_chan_self c v s ▸ (h.chan c).writeDuty ha hv)

theorem setDuty (h : s.RunningOk) (ha : s.active c = true) {pct : Percent} (hp : pct.toNat ≤ 100) :
    (setDuty c pct s).RunningOk := by
  refine h.of_chan (c := c) (by simp) (by simp) (by simp) (by simp) (fun k hk => setDuty_chan_other c k pct s hk) ?_
  rw [setDuty_chan_self, (topRead_of_value (h.ttop_eq ha)).1]
  exact (h.chan c).writeCmp ha (dutyTicks_le hp _)

theorem tickChannel (h : s.RunningOk) (ha : s.active c = true) (t : Int) : (tickChannel c t s).RunningOk := by
  have hd := interp_paramCurve_le s.params c t
  exact (h.writeDuty ha hd).setDuty ha hd

theorem smoothEffect (h : s.RunningOk) (raw : RawSample) : (smoothEffect raw s).RunningOk :=
  h.writeAvg (smooth_toNat_le h.avg raw)

theorem estimEffect (h : s.RunningOk) : (estimEffect s).RunningOk := h.writeTemp (estimate_inRange h.avg)

theorem interpEffect (h : s.RunningOk) (ha : s.active c = true) : (interpEffect c s).RunningOk := by
  cases ht : s.temp with
  | value w =>
    rw [interpEffect_of_value ht]
    exact h.writeDuty ha (interp_paramCurve_le s.params c _)
  | noValue =>
    rw [interpEffect_of_noValue ht]
    have hfree := (Config.freeDuty s.draws).isLt
    exact h.drawn.writeDuty ha (by rw [BitVec.toNat_ofNat]; omega)

theorem setdutyEffect (h : s.RunningOk) (ha : s.active c = true) (pct : Percent) :
    (setdutyEffect c pct s).RunningOk := by
  obtain hp | hp := le_or_gt pct.toNat 100
  · rw [setdutyEffect_of_ok hp]
    exact h.setDuty ha hp
  · rw [setdutyEffect_of_excess hp]
    exact h.flagPcterr

/-- The state a tick's channels start from: the sample smoothed and the temperature estimated. -/
theorem sampled (h : s.RunningOk) :
    ((s.writeAvg (smooth s.avg s.rawIn)).writeTemp (estimate (smooth s.avg s.rawIn))).RunningOk :=
  have havg := smooth_toNat_le h.avg s.rawIn
  (h.writeAvg havg).writeTemp (estimate_inRange havg)

theorem whenActive_tickChannel (h : s.RunningOk) (c : Ch) (t : Int) :
    (whenActive c (Machine.tickChannel c t) s).RunningOk := whenActive_keeps h fun ha => h.tickChannel ha t

theorem tickEffect (h : s.RunningOk) : (tickEffect s).RunningOk :=
  (h.sampled.whenActive_tickChannel .ch0 _).whenActive_tickChannel .ch1 _

end State.RunningOk

/-! ### The invariant before Running -/

/-- The invariant together with `RUN = 0`, clause by clause. -/
structure State.UninitializedOk (s : State) : Prop where
  run : s.status.run = false
  avg : s.avg = 0x00200000#32
  temp : s.temp = .noValue
  pcterr : s.status.pcterr = false
  chan : ∀ c, ChannelOk s.params false (s.status.topovf c) c (s.chan c)

theorem State.uninitializedOk_iff (s : State) : s.UninitializedOk ↔ s.inv = true ∧ s.status.run = false := by
  rw [inv_iff]
  constructor
  · intro ⟨run, avg, temp, pcterr, chan⟩
    exact ⟨⟨by simp [avg], by simp [temp, Held.all], .inr ⟨temp, avg, pcterr⟩,
      fun c => (channelInv_iff ..).2 (run ▸ chan c)⟩, run⟩
  · intro ⟨⟨_, _, before, chan⟩, run⟩
    obtain ⟨temp, avg, pcterr⟩ := before.resolve_left (by simp [run])
    exact ⟨run, avg, temp, pcterr, fun c => (channelInv_iff ..).1 (run ▸ chan c)⟩

namespace State.UninitializedOk

variable {s : State} {c : Ch}

theorem inv (h : s.UninitializedOk) : s.inv = true := ((uninitializedOk_iff s).1 h).1

theorem configure_chan (h : s.UninitializedOk) (ha : s.active c = true) :
    ChannelOk s.params false ((configure c s).status.topovf c) c ((configure c s).chan c) := by
  rw [configure_status, noteTopovf_topovf_self, configure_chan_self]
  exact (h.chan c).configure ha

theorem configure (h : s.UninitializedOk) (ha : s.active c = true) : (configure c s).UninitializedOk where
  run := by simp [h.run]
  avg := by simp [h.avg]
  temp := by simp [h.temp]
  pcterr := by simp [h.pcterr]
  chan k := by
    rw [configure_params]
    by_cases hk : k = c
    · subst hk
      exact h.configure_chan ha
    · simpa [hk] using h.chan k

theorem initEffect (h : s.UninitializedOk) : (initEffect s).RunningOk where
  run := initEffect_run s
  avg := by simp [fx_mid]
  temp := by simp [h.temp, Held.all]
  chan c := by
    rw [initEffect_params, initEffect_topovf, initEffect_chan]
    by_cases ha : s.active c = true
    · simp only [ha, if_true]
      exact (h.configure_chan ha).startRun fun _ => by simp
    · simp only [ha]
      exact (h.chan c).startRun fun hp => absurd hp ha

end State.UninitializedOk

/-! ### The invariant, access by access -/

theorem resetRegisters_inv (s : State) : s.resetRegisters.inv = true :=
  State.UninitializedOk.inv ⟨rfl, rfl, rfl, rfl, fun c => by cases c <;> exact ChannelOk.reset _ _⟩

/-- A legal command keeps the invariant: `INIT` takes it from Uninitialized to Running, the others keep it where they
are legal. -/
theorem effectOf_inv {i : Instr} {s : State} (h : s.inv = true) (hl : s.legal i = true) :
    (effectOf i s).inv = true := by
  have hrunning (hr : s.status.run = true) : s.RunningOk := s.runningOk_iff.2 ⟨h, hr⟩
  have huninit (hr : s.status.run = false) : s.UninitializedOk := s.uninitializedOk_iff.2 ⟨h, hr⟩
  cases i <;> simp only [State.legal, Bool.and_eq_true, Bool.not_eq_true'] at hl
  case init => exact (huninit hl).initEffect.inv
  case config c => exact ((huninit hl.1).configure hl.2).inv
  case smooth raw => exact ((hrunning hl).smoothEffect raw).inv
  case estim => exact (hrunning hl).estimEffect.inv
  case interp c => exact ((hrunning hl.1).interpEffect hl.2).inv
  case setduty c pct => exact ((hrunning hl.1).setdutyEffect hl.2 pct).inv
  case tick => exact (hrunning hl).tickEffect.inv

/-- Settles O38: the reset state is Uninitialized, and both channels are as reset leaves them. -/
theorem invariantHoldsAtReset : Obligations.InvariantHoldsAtReset :=
  ⟨resetRegisters_inv State.reset, fun p raw => resetRegisters_inv (State.resetWith p raw)⟩

/-- Settles O39: each thing a step can do keeps the invariant (`step_keeps`). The invariant does not speak of the port's
lists, of the sensor level, of the count of draws or of `ILLCMD`; what is left are reset and the legal commands. -/
theorem everyStepKeepsTheInvariant : Obligations.EveryStepKeepsTheInvariant := by
  intro s t h hs
  refine step_keeps (P := fun u => u.inv = true) hs h ?accept ?present ?drawn ?returned ?reset ?abandon ?illcmd ?effect
  case accept => exact fun _ _ hu => hu
  case present => exact fun _ _ hu => hu
  case drawn => exact fun _ hu => hu
  case returned => exact fun _ _ _ hu => hu
  case reset => exact fun u _ => resetRegisters_inv u
  case abandon => exact fun u _ _ _ => resetRegisters_inv u
  case illcmd => exact fun _ hu => hu
  case effect => exact fun _ _ hu hl => effectOf_inv hu hl

/-! ### No set-duty reads a missing TOP (10_state.md R30) -/

theorem setDuty_draws {s : State} {c : Ch} {v : BitVec 8} (h : (s.chan c).ttop = .value v) (pct : Percent) :
    (setDuty c pct s).draws = s.draws := by
  simp [setDuty, (topRead_of_value h).2]

namespace State.RunningOk

variable {s : State} {c : Ch}

theorem tickChannel_draws (h : s.RunningOk) (ha : s.active c = true) (t : Int) :
    (Machine.tickChannel c t s).draws = s.draws :=
  setDuty_draws (by simpa using h.ttop_eq ha) _

theorem whenActive_tickChannel_draws (h : s.RunningOk) (c : Ch) (t : Int) :
    (whenActive c (Machine.tickChannel c t) s).draws = s.draws :=
  whenActive_keeps (P := fun u => u.draws = s.draws) rfl fun ha => h.tickChannel_draws ha t

theorem tickEffect_draws (h : s.RunningOk) : (Machine.tickEffect s).draws = s.draws :=
  ((h.sampled.whenActive_tickChannel .ch0 _).whenActive_tickChannel_draws .ch1 _).trans
    (h.sampled.whenActive_tickChannel_draws .ch0 _)

theorem setdutyEffect_draws (h : s.RunningOk) (ha : s.active c = true) (pct : Percent) :
    (Machine.setdutyEffect c pct s).draws = s.draws := by
  obtain hp | hp := le_or_gt pct.toNat 100
  · rw [setdutyEffect_of_ok hp, setDuty_draws (h.ttop_eq ha)]
  · rw [setdutyEffect_of_excess hp, flagPcterr_draws]

end State.RunningOk

/-- A legal `SETDUTY` up to 100 percent is a set-duty. -/
theorem exec_setduty {s : State} {c : Ch} {pct : Percent} (hr : s.status.run = true) (ha : s.active c = true)
    (hp : pct.toNat ≤ 100) : exec (.setduty c pct) s = .next (setDuty c pct s) := by
  rw [exec_of_legal (by simp [State.legal, hr, ha]), effectOf, setdutyEffect_of_ok hp]

/-- The whole effect of a set-duty, the TOP it reads and the number of draws after the read left to `topRead` and
`afterTopRead`. -/
theorem setDuty_eq (c : Ch) (pct : Percent) (s : State) : setDuty c pct s =
    ({ s with events := s.events ++ [⟨c, .cmp (dutyTicks (s.topRead c) pct)⟩], draws := (s.afterTopRead c).draws } :
      State).setChan c { s.chan c with tcmp := .value (dutyTicks (s.topRead c) pct) } := by
  cases h : (s.chan c).ttop with
  | value v =>
    simp only [setDuty, (topRead_of_value h).2]
    rfl
  | noValue =>
    simp only [setDuty, (topRead_of_noValue h).2]
    cases c <;> rfl

/-- Settles O32: under the invariant TOP of an active channel in Running is the selected one (`RunningOk.ttop_eq`), so a
set-duty reads that and draws nothing; in any state it reads `TTOP[ch]`, or draws the free TOP and counts it. -/
theorem setdutyAndTickNeverReadAMissingTop : Obligations.SetdutyAndTickNeverReadAMissingTop := by
  refine ⟨fun s hinv hr => ?_, fun s c pct hr ha hp => ?_⟩
  · have h : s.RunningOk := s.runningOk_iff.2 ⟨hinv, hr⟩
    refine ⟨⟨_, exec_of_legal hr, h.tickEffect_draws⟩, fun c top ha htop => ?_⟩
    have hreg : (s.chan c).ttop = .value top := by
      rw [h.ttop_eq ha, htop]
      cases c <;> rfl
    refine ⟨hreg, fun pct => ⟨_, exec_of_legal (by simp [State.legal, hr, ha]), h.setdutyEffect_draws ha pct, ?_⟩⟩
    intro hp
    rw [effectOf, setdutyEffect_of_ok hp, setDuty_chan_self, (topRead_of_value hreg).1]
    rfl
  · refine ⟨s.topRead c, dutyTicks (s.topRead c) pct, (s.afterTopRead c).draws, fun v hv => ?_, fun hn => ?_, rfl, ?_⟩
    · obtain ⟨htop, hstate⟩ := topRead_of_value hv
      exact ⟨htop, by rw [hstate]⟩
    · rw [(topRead_of_noValue hn).2, drawn_draws]
    · rw [exec_setduty hr ha hp, setDuty_eq]

/-! ### Which commands write a register -/

theorem effectOf_avg (i : Instr) (s : State) :
    (effectOf i s).avg = s.avg ∨ i = .init ∨ (∃ raw, i = .smooth raw) ∨ i = .tick := by
  cases i <;> simp [effectOf, estimEffect]

theorem effectOf_temp (i : Instr) (s : State) : (effectOf i s).temp = s.temp ∨ i = .estim ∨ i = .tick := by
  cases i <;> simp [effectOf, smoothEffect]

theorem effectOf_duty (i : Instr) (c : Ch) (s : State) :
    ((effectOf i s).chan c).duty = (s.chan c).duty ∨ i = .interp c ∨ i = .tick := by
  cases i with
  | interp k =>
    by_cases hk : c = k
    · exact .inr (.inl (hk ▸ rfl))
    · exact .inl (congrArg Channel.duty (interpEffect_chan_other k c s hk))
  | _ => simp [effectOf, smoothEffect, estimEffect]

theorem effectOf_setup (i : Instr) (c : Ch) (s : State) :
    ((effectOf i s).chan c).setup = (s.chan c).setup ∨ i = .config c ∨ i = .init := by
  cases i with
  | config k =>
    by_cases hk : c = k
    · exact .inr (.inl (hk ▸ rfl))
    · exact .inl (congrArg Channel.setup (configure_chan_other k c s hk))
  | _ => simp [effectOf, smoothEffect, estimEffect]

theorem effectOf_tcmp (i : Instr) (c : Ch) (s : State) :
    ((effectOf i s).chan c).tcmp = (s.chan c).tcmp ∨ (∃ pct, i = .setduty c pct) ∨ i = .tick := by
  cases i with
  | setduty k pct =>
    by_cases hk : c = k
    · exact .inr (.inl ⟨pct, hk ▸ rfl⟩)
    · exact .inl (congrArg Channel.tcmp (setdutyEffect_chan_other k c pct s hk))
  | _ => simp [effectOf, smoothEffect, estimEffect]

theorem effectOf_run (i : Instr) (s : State) :
    (effectOf i s).status.run = s.status.run ∨ i = .init := by
  cases i <;> simp [effectOf, smoothEffect, estimEffect]

/-- Settles O45: a refused command writes no register, a legal one those of `effectOf_avg` and its fellows. -/
theorem registersAreWrittenOnlyByTheirCommands : Obligations.RegistersAreWrittenOnlyByTheirCommands := by
  intro i s t h
  obtain ⟨_, rfl⟩ | ⟨_, rfl⟩ := exec_cases h
  · refine ⟨(effectOf_avg i s).resolve_left, (effectOf_temp i s).resolve_left, fun c =>
      ⟨(effectOf_duty i c s).resolve_left, fun hne => (effectOf_setup i c s).resolve_left fun heq => ?_,
        (effectOf_tcmp i c s).resolve_left⟩⟩
    obtain ⟨hmode, hpresc, htop⟩ := (setup_eq_iff _ _).1 heq
    simp [hmode, hpresc, htop] at hne
  · simp

/-- Settles O43: the only commands that write a channel's setup are not legal in Running (R76). -/
theorem setupIsImmutableInRunning : Obligations.SetupIsImmutableInRunning := by
  intro i s t hr h c
  rw [← setup_eq_iff]
  obtain ⟨hl, rfl⟩ | ⟨_, rfl⟩ := exec_cases h
  · refine (effectOf_setup i c s).resolve_right ?_
    rintro (rfl | rfl) <;> simp [State.legal, hr] at hl
  · rw [flagIllcmd_chan]

/-! ### `RUN` -/

theorem exec_run {i : Instr} {s t : State} (h : exec i s = .next t) :
    t.status.run = s.status.run ∨ i = .init ∧ t.status.run = true := by
  obtain ⟨_, rfl⟩ | ⟨_, rfl⟩ := exec_cases h
  · exact (effectOf_run i s).imp_right fun hi => ⟨hi, hi ▸ initEffect_run s⟩
  · exact .inl rfl

theorem regRead_status (idx : BitVec 4) (s : State) : (regRead idx s).status = s.status := by
  obtain ⟨_, _, h⟩ | ⟨_, h⟩ := regRead_cases idx s <;> simp [h]

theorem regWrite_run {idx : BitVec 4} {w : Word} {s t : State} (h : regWrite idx w s = .next t) :
    t.status.run = s.status.run ∨ (idx = 0#4 ∧ decode w = .command .init ∧ t.status.run = true) := by
  obtain ⟨_, e⟩ | ⟨hidx, i, hd, e⟩ | ⟨_, _, _, e⟩ := regWrite_cases idx w s <;> rw [e] at h
  · injection h with h
    exact .inl (h ▸ rfl)
  · refine (exec_run h).imp_right ?_
    rintro ⟨rfl, hrun⟩
    exact ⟨hidx, hd, hrun⟩
  · injection h with h
    exact .inl (h ▸ rfl)

/-- All that a step can do to `RUN`. -/
theorem step_run {s t : State} (h : step s = .next t) :
    t.status.run = s.status.run ∨
    (t.status.run = true ∧ ∃ w rest, s.pending = .write 0#4 w :: rest ∧ decode w = .command .init) ∨
    (t.status.run = false ∧ ∃ rest, s.pending = .reset :: rest ∨ ∃ idx w, s.pending = .writeAborted idx w :: rest) := by
  obtain ⟨_, rfl⟩ | ⟨a, rest, hp, ha⟩ := step_cases h
  · exact .inl rfl
  · cases a with
    | write idx w =>
      refine (regWrite_run ha).imp_right ?_
      rintro ⟨rfl, hd, hrun⟩
      exact .inl ⟨hrun, w, rest, hp, hd⟩
    | read idx =>
      injection ha with ha
      exact .inl (by rw [← ha, regRead_status, accepted_status])
    | present raw =>
      injection ha with ha
      exact .inl (ha ▸ rfl)
    | reset =>
      injection ha with ha
      exact .inr (.inr ⟨ha ▸ rfl, rest, .inl hp⟩)
    | writeAborted idx w =>
      obtain ⟨done, _, rfl⟩ := regWriteAborted_cases ha
      exact .inr (.inr ⟨rfl, rest, .inr ⟨idx, w, hp⟩⟩)

/-- Settles O42: of what a step can do to `RUN` (`step_run`) only `INIT` can set it and only a reset can clear it. -/
theorem onlyInitEntersRunningAndOnlyResetLeaves : Obligations.OnlyInitEntersRunningAndOnlyResetLeaves := by
  intro s t h
  obtain hsame | ⟨hset, hinit⟩ | ⟨hclear, hreset⟩ := step_run h
  · rw [hsame]
    exact ⟨fun hclear hset => absurd hset (ne_true_of_eq_false hclear),
      fun hset hclear => absurd hset (ne_true_of_eq_false hclear)⟩
  · exact ⟨fun _ _ => hinit, fun _ hclear => absurd hset (ne_true_of_eq_false hclear)⟩
  · exact ⟨fun _ hset => absurd hset (ne_true_of_eq_false hclear), fun _ _ => hreset⟩

/-! ### The registers after reset (R31) and the bits of `STATUS` (R25) -/

/-- Settles O1: both ways to a state after reset are `State.resetRegisters`. -/
theorem resetLeavesStatedState : Obligations.ResetLeavesStatedState := by
  intro s h
  obtain ⟨u, rfl⟩ : ∃ u : State, s = u.resetRegisters := by
    obtain rfl | ⟨u, hu⟩ := h
    · exact ⟨State.reset, rfl⟩
    · injection hu with hu
      exact ⟨u, hu.symm⟩
  refine ⟨(by decide : Status.reset.word = 0#32), rfl, rfl, fun c => ?_⟩
  rw [resetRegisters_chan]
  exact ⟨rfl, rfl, rfl, rfl, rfl⟩

/-- Settles O49: the low byte by its 8 positions and the values of the five bits, every bit above it is 0. -/
theorem statusBitsStandWhereStated : Obligations.StatusBitsStandWhereStated := by
  intro t k
  obtain hk | hk := lt_or_ge k 8
  · obtain ⟨run, illcmd, pcterr, topovf0, topovf1⟩ := t
    revert run illcmd pcterr topovf0 topovf1 k
    decide
  · refine (BitVec.getLsbD_append (x := 0#24)).trans ?_
    simp [Nat.not_lt.2 hk, show k ≠ 0 ∧ k ≠ 4 ∧ k ≠ 5 ∧ k ≠ 6 ∧ k ≠ 7 by omega]

end Sys2Proof.Machine

namespace Sys2Proof.Machine

/-! ### What is kept by each thing a command's effect is made of -/

/-- What each single write, flag and draw keeps, the effect of every command keeps. -/
theorem effectOf_keeps {P : State → Prop} (havg : ∀ v u, P u → P (State.writeAvg v u))
    (htemp : ∀ v u, P u → P (State.writeTemp v u)) (hduty : ∀ c v u, P u → P (State.writeDuty c v u))
    (htimer : ∀ c f u, P u → P (State.timerWrite c f u)) (htopovf : ∀ c b u, P u → P (State.flagTopovf c b u))
    (hpcterr : ∀ u, P u → P u.flagPcterr) (hrun : ∀ u, P u → P u.startRun) (hdrawn : ∀ u, P u → P u.drawn)
    (i : Instr) {s : State} (h : P s) : P (effectOf i s) := by
  have hconfigure : ∀ c u, P u → P (configure c u) := fun c u hu =>
    htopovf c _ _ (htimer c _ _ (htimer c _ _ (htimer c _ u hu)))
  have hset : ∀ c pct u, P u → P (setDuty c pct u) := fun c pct u hu => by
    cases htop : (u.chan c).ttop with
    | value v => exact htimer c _ _ ((topRead_of_value htop).2.symm ▸ hu)
    | noValue => exact htimer c _ _ ((topRead_of_noValue htop).2.symm ▸ hdrawn u hu)
  have htick : ∀ c t u, P u → P (tickChannel c t u) := fun c t u hu => hset c _ _ (hduty c _ u hu)
  have hactive : ∀ c f u, (∀ v, P v → P (f v)) → P u → P (whenActive c f u) := fun c f u hf hu =>
    whenActive_keeps hu fun _ => hf u hu
  cases i with
  | init =>
    exact hrun _ (havg _ _ (hactive .ch1 _ _ (hconfigure .ch1) (hactive .ch0 _ s (hconfigure .ch0) h)))
  | config c => exact hconfigure c s h
  | smooth raw => exact havg _ s h
  | estim => exact htemp _ s h
  | interp c =>
    obtain ⟨v, e | e⟩ := interpEffect_cases c s <;> rw [effectOf, e]
    · exact hduty c v s h
    · exact hduty c v _ (hdrawn s h)
  | setduty c pct =>
    obtain e | e := setdutyEffect_cases c pct s <;> rw [effectOf, e]
    · exact hset c pct s h
    · exact hpcterr s h
  | tick =>
    exact hactive .ch1 _ _ (htick .ch1 _) (hactive .ch0 _ _ (htick .ch0 _) (htemp _ _ (havg _ s h)))

/-! ### The adapter registers mirror the timer writes (20_memory.md R58) -/

theorem lastSent_append (c : Ch) (events : List TimerEvent) (e : TimerEvent) :
    lastSent c (events ++ [e]) =
      if e.ch = c then (lastSent c events).mirror e.write else lastSent c events := by
  simp [lastSent]

theorem channelMirrored_reset (c : Ch) (events : List TimerEvent) :
    channelMirrored c events Channel.reset = true := rfl

theorem channelMirrored_iff (c : Ch) (events : List TimerEvent) (x : Channel) :
    channelMirrored c events x = true ↔
      x.tpresc.all (fun v => decide ((lastSent c events).tpresc = .value v)) = true ∧
      x.ttop.all (fun v => decide ((lastSent c events).ttop = .value v)) = true ∧
      x.tcmp.all (fun v => decide ((lastSent c events).tcmp = .value v)) = true ∧
      (x.tmode = 0#1 ∨ (lastSent c events).tmode = x.tmode) := by
  simp only [channelMirrored, Bool.and_eq_true, Bool.or_eq_true, decide_eq_true_eq, and_assoc]

/-- A timer write on its own channel: the field written is the last one sent, the other fields are as they were. -/
theorem channelMirrored_mirror {c : Ch} {events : List TimerEvent} {x : Channel}
    (h : channelMirrored c events x = true) (f : TimerField) :
    channelMirrored c (events ++ [⟨c, f⟩]) (x.mirror f) = true := by
  rw [channelMirrored_iff] at h ⊢
  obtain ⟨hpresc, htop, hcmp, hmode⟩ := h
  rw [lastSent_append, if_pos rfl]
  cases f with
  | mode v => exact ⟨hpresc, htop, hcmp, .inr rfl⟩
  | presc v => exact ⟨decide_eq_true rfl, htop, hcmp, hmode⟩
  | top v => exact ⟨hpresc, decide_eq_true rfl, hcmp, hmode⟩
  | cmp v => exact ⟨hpresc, htop, decide_eq_true rfl, hmode⟩

/-- A timer write on the other channel does not count. -/
theorem channelMirrored_append_other {c : Ch} {e : TimerEvent} (he : e.ch ≠ c) (events : List TimerEvent)
    (x : Channel) : channelMirrored c (events ++ [e]) x = channelMirrored c events x := by
  simp [channelMirrored, lastSent_append, he]

theorem mirrored_iff (s : State) :
    s.mirrored = true ↔ ∀ c, channelMirrored c s.events (s.chan c) = true := by
  rw [State.mirrored, Bool.and_eq_true]
  exact ⟨fun ⟨hfan, hpump⟩ c => by cases c <;> assumption, fun h => ⟨h .ch0, h .ch1⟩⟩

theorem timerWrite_mirrored {s : State} (h : s.mirrored = true) (c : Ch) (f : TimerField) :
    (s.timerWrite c f).mirrored = true := by
  rw [mirrored_iff] at h ⊢
  intro k
  rw [timerWrite_events]
  by_cases hk : k = c
  · subst hk
    rw [timerWrite_chan_self]
    exact channelMirrored_mirror (h k) f
  · rw [timerWrite_chan_other c k f s hk, channelMirrored_append_other (Ne.symm hk)]
    exact h k

theorem writeDuty_mirrored {s : State} (h : s.mirrored = true) (c : Ch) (v : Percent) :
    (s.writeDuty c v).mirrored = true := by
  cases c <;> exact h

/-- After a reset no adapter register holds a value or is 1, whatever has been sent. -/
theorem mirrored_of_reset_channels {s : State} (h : ∀ c, s.chan c = Channel.reset) : s.mirrored = true :=
  (mirrored_iff s).2 fun c => h c ▸ channelMirrored_reset c s.events

theorem effectOf_mirrored (i : Instr) {s : State} (h : s.mirrored = true) : (effectOf i s).mirrored = true := by
  refine effectOf_keeps (P := fun u => u.mirrored = true) ?avg ?temp ?duty ?timer ?topovf ?pcterr ?run ?drawn i h
  case duty => exact fun c v _ hu => writeDuty_mirrored hu c v
  case timer => exact fun c f _ hu => timerWrite_mirrored hu c f
  case avg | temp => exact fun _ _ hu => hu
  case topovf => exact fun _ _ _ hu => hu
  case pcterr | run | drawn => exact fun _ hu => hu

/-- Settles O40: a timer write changes the adapter register together with the history (`timerWrite_mirrored`), a reset
empties the registers, and nothing else touches either. -/
theorem adapterRegistersMirrorTheTimerWrites : Obligations.AdapterRegistersMirrorTheTimerWrites := by
  refine ⟨mirrored_of_reset_channels (resetRegisters_chan State.reset), fun s t h hs => ?_⟩
  refine step_keeps (P := fun u => u.mirrored = true) hs h ?accept ?present ?drawn ?returned ?reset ?abandon ?illcmd
    ?effect
  case reset => exact fun u _ => mirrored_of_reset_channels (resetRegisters_chan u)
  case abandon => exact fun u v _ _ => mirrored_of_reset_channels (resetRegisters_chan u)
  case effect => exact fun i _ hu _ => effectOf_mirrored i hu
  case accept | present => exact fun _ _ hu => hu
  case drawn | illcmd => exact fun _ hu => hu
  case returned => exact fun _ _ _ hu => hu

/-! ### Who reads the sensor port (20_memory.md R56, R57) -/

/-- Another level on `raw_in`. -/
def State.setRaw (raw : RawSample) (s : State) : State := { s with rawIn := raw }

theorem perform_present (raw : RawSample) (s : State) : perform (.present raw) s = .next (s.setRaw raw) := rfl

theorem setRaw_legal (raw : RawSample) (i : Instr) (s : State) : (s.setRaw raw).legal i = s.legal i := by
  cases i <;> rfl

theorem whenActive_setRaw {raw : RawSample} {c : Ch} {f : State → State}
    (hf : ∀ u, f (State.setRaw raw u) = (f u).setRaw raw) (s : State) :
    whenActive c f (s.setRaw raw) = (whenActive c f s).setRaw raw := by
  cases ha : s.active c with
  | true => rw [whenActive_of_active ha, whenActive_of_active (s := s.setRaw raw) ha, hf]
  | false => rw [whenActive_of_inactive ha, whenActive_of_inactive (s := s.setRaw raw) ha]

theorem configure_setRaw (raw : RawSample) (c : Ch) (s : State) :
    configure c (s.setRaw raw) = (configure c s).setRaw raw := rfl

theorem initEffect_setRaw (raw : RawSample) (s : State) :
    initEffect (s.setRaw raw) = (initEffect s).setRaw raw := by
  simp only [initEffect, whenActive_setRaw (configure_setRaw raw _)]
  rfl

theorem interpEffect_setRaw (raw : RawSample) (c : Ch) (s : State) :
    interpEffect c (s.setRaw raw) = (interpEffect c s).setRaw raw := by
  cases h : s.temp with
  | value w => rw [interpEffect_of_value h, interpEffect_of_value (s := s.setRaw raw) h]; rfl
  | noValue => rw [interpEffect_of_noValue h, interpEffect_of_noValue (s := s.setRaw raw) h]; rfl

theorem setDuty_setRaw (raw : RawSample) (c : Ch) (pct : Percent) (s : State) :
    setDuty c pct (s.setRaw raw) = (setDuty c pct s).setRaw raw := by
  cases h : (s.chan c).ttop with
  | value v => simp only [setDuty, topRead_of_value h, topRead_of_value (s := s.setRaw raw) h]; rfl
  | noValue => simp only [setDuty, topRead_of_noValue h, topRead_of_noValue (s := s.setRaw raw) h]; rfl

theorem setdutyEffect_setRaw (raw : RawSample) (c : Ch) (pct : Percent) (s : State) :
    setdutyEffect c pct (s.setRaw raw) = (setdutyEffect c pct s).setRaw raw := by
  obtain h | h := le_or_gt pct.toNat 100
  · simp only [setdutyEffect_of_ok h, setDuty_setRaw]
  · simp only [setdutyEffect_of_excess h]
    rfl

/-- The effect of a command but `TICK` and a new level on `raw_in` commute. -/
theorem effectOf_setRaw {i : Instr} (hi : i ≠ .tick) (raw : RawSample) (s : State) :
    effectOf i (s.setRaw raw) = (effectOf i s).setRaw raw := by
  cases i with
  | init => exact initEffect_setRaw raw s
  | config c => exact configure_setRaw raw c s
  | smooth _ => rfl
  | estim => rfl
  | interp c => exact interpEffect_setRaw raw c s
  | setduty c pct => exact setdutyEffect_setRaw raw c pct s
  | tick => exact absurd rfl hi

/-- Settles O37: legality does not read the port (`setRaw_legal`), and no effect but that of `TICK` does
(`effectOf_setRaw`). -/
theorem onlyTickReadsTheSensor : Obligations.OnlyTickReadsTheSensor := by
  intro i s t raw hi h
  obtain ⟨hl, rfl⟩ | ⟨hl, rfl⟩ := exec_cases h
  · have hne : i ≠ .tick := hi.elim id fun hr hi => by simp [hi, State.legal, hr] at hl
    exact (exec_of_legal ((setRaw_legal raw i s).trans hl)).trans (congrArg _ (effectOf_setRaw hne raw s))
  · exact exec_of_illegal ((setRaw_legal raw i s).trans hl)

/-- Settles O54: the two channels' parts of a tick leave the average, the temperature and the port as they find them. -/
theorem sensorPortPresentsTheSampleOfTheNextTick : Obligations.SensorPortPresentsTheSampleOfTheNextTick := by
  intro s raw
  refine ⟨perform_present raw s, fun hr => ⟨_, exec_of_legal hr, ?avg, ?temp, ?raw⟩⟩
  case avg => exact tickEffect_field State.avg (fun c t u => by simp [tickChannel]) _
  case temp => exact tickEffect_field State.temp (fun c t u => by simp [tickChannel]) _
  case raw => exact tickEffect_field State.rawIn (fun c t u => by simp [tickChannel]) _

/-! ### The register port (20_memory.md R51 to R54) -/

theorem presc_bits_toNat (p : Presc) : p.bits.toNat = p.pidx.toNat * 4096 + p.div.toNat := by
  have hpidx := p.pidx.isLt
  have hdiv := p.div.isLt
  have hshift : (p.pidx.setWidth 15 <<< 12).toNat = 2 ^ 12 * p.pidx.toNat := by
    rw [BitVec.toNat_shiftLeft, BitVec.toNat_setWidth, Nat.shiftLeft_eq]
    omega
  have hlow : (p.div.setWidth 15).toNat = p.div.toNat := by
    rw [BitVec.toNat_setWidth]
    omega
  rw [Presc.bits, BitVec.toNat_or, hshift, hlow, ← Nat.two_pow_add_eq_or_of_lt (by omega)]
  omega

theorem prescWord_value (p : Presc) :
    prescWord (.value p) = .value (BitVec.ofNat 32 (p.pidx.toNat * 4096 + p.div.toNat)) := by
  rw [← presc_bits_toNat, BitVec.ofNat_toNat]
  rfl

theorem toWord_value {n : Nat} (v : BitVec n) : (Held.value v).toWord = .value (v.setWidth 32) := rfl

/-- Settles O46: each index of the map is its register by definition; the registers that may hold no value go through
`Held.toWord` and `prescWord`. -/
theorem registerMapReadsTheRegisters : Obligations.RegisterMapReadsTheRegisters := by
  intro s
  refine ⟨rfl, rfl, rfl, rfl, rfl, rfl, fun c k hk => ?_⟩
  obtain ⟨hmode, hduty, hpresc, htop, hcmp⟩ :
      s.register (BitVec.ofNat 4 (8 + 4 * k)) = .value ((s.chan c).tmode.setWidth 32) ∧
      s.register (BitVec.ofNat 4 (4 + k)) = (s.chan c).duty.toWord ∧
      s.register (BitVec.ofNat 4 (9 + 4 * k)) = prescWord (s.chan c).tpresc ∧
      s.register (BitVec.ofNat 4 (10 + 4 * k)) = (s.chan c).ttop.toWord ∧
      s.register (BitVec.ofNat 4 (11 + 4 * k)) = (s.chan c).tcmp.toWord := by
    subst hk
    cases c <;> exact ⟨rfl, rfl, rfl, rfl, rfl⟩
  rw [hduty, hpresc, htop, hcmp]
  exact ⟨hmode, fun v h => h ▸ toWord_value v, fun v h => h ▸ prescWord_value v, fun v h => h ▸ toWord_value v,
    fun v h => h ▸ toWord_value v, fun h => h ▸ rfl, fun h => h ▸ rfl, fun h => h ▸ rfl, fun h => h ▸ rfl⟩

/-- Settles O47: the two cases of `regRead_cases`. -/
theorem readingReturnsTheWordAndChangesNothing : Obligations.ReadingReturnsTheWordAndChangesNothing := by
  intro s idx
  obtain ⟨w, hreg, hread⟩ | ⟨hreg, hread⟩ := regRead_cases idx s
  · refine ⟨fun v hv => ?_, fun hn => by simp [hreg] at hn⟩
    obtain rfl : w = v := by simpa [hreg] using hv
    exact congrArg _ hread
  · exact ⟨fun v hv => by simp [hreg] at hv, fun _ => ⟨_, congrArg _ hread⟩⟩

theorem perform_write_command {w : Word} {i : Instr} (h : decode w = .command i) (s : State) :
    perform (.write 0#4 w) s = exec i s := by
  simp [perform, regWrite, cmdWrite, h]

theorem perform_write_illegal {w : Word} {why : IllegalWord} (h : decode w = .illegal why) (s : State) :
    perform (.write 0#4 w) s = .next s.flagIllcmd := by
  simp [perform, regWrite, cmdWrite, h]

theorem decode_of_upperHalf {w : Word} (h : w.extractLsb' 16 16 ≠ 0#16) : decode w = .illegal .upperHalf := if_neg h

theorem decode_of_decodeHalf {w : Word} {i : Instr} (hup : w.extractLsb' 16 16 = 0#16)
    (hlow : decodeHalf (w.extractLsb' 0 16) = some i) : decode w = .command i := by
  simp [decode, hup, hlow]

/-- A host read changes no register. -/
theorem regRead_registers (idx : BitVec 4) (s : State) :
    (regRead idx s).avg = s.avg ∧ (regRead idx s).temp = s.temp ∧ (regRead idx s).status = s.status ∧
      (regRead idx s).ch0 = s.ch0 ∧ (regRead idx s).ch1 = s.ch1 := by
  obtain ⟨w, _, h⟩ | ⟨_, h⟩ := regRead_cases idx s <;> rw [h] <;> exact ⟨rfl, rfl, rfl, rfl, rfl⟩

/-- Settles O48: what a write does is decided by its index, then by its upper half, then by the opcode map; a read only
records the word it returns. -/
theorem onlyWritesToCmdHaveAnEffect : Obligations.OnlyWritesToCmdHaveAnEffect := by
  intro s idx w
  refine ⟨fun hidx => if_neg hidx, fun hup => perform_write_illegal (decode_of_upperHalf hup) s,
    fun i hup hlow => perform_write_command (decode_of_decodeHalf hup hlow) s, fun raw t h => ?_⟩
  obtain h | h := h <;> injection h with h <;> subst h
  · exact regRead_registers idx s
  · exact ⟨rfl, rfl, rfl, rfl, rfl⟩

/-! ### A step and its access (20_memory.md R62) -/

theorem step_of_idle {s : State} (h : s.pending = []) : step s = .next s := by
  simp [step, advance, h]

theorem step_of_pending {s : State} {a : HostAccess} {rest : List HostAccess} (h : s.pending = a :: rest) :
    step s = perform a { s with pending := rest } := by
  simp only [step, advance, h]
  rfl

/-- Settles O9: the two cases of `advance`. -/
theorem stepPerformsTheOldestAccess : Obligations.StepPerformsTheOldestAccess :=
  fun _ => ⟨step_of_idle, fun _ _ => step_of_pending⟩

/-- Settles O8: the step performs the write (`step_of_pending`), and the write runs the command. -/
theorem stepRunsTheDecodedCommand : Obligations.StepRunsTheDecodedCommand :=
  fun _ _ _ _ hp hd => (step_of_pending hp).trans (perform_write_command hd _)

theorem exec_completes (i : Instr) (s : State) : ∃ t, exec i s = .next t := ⟨_, exec_eq i s⟩

theorem regWrite_completes (idx : BitVec 4) (w : Word) (s : State) : ∃ t, regWrite idx w s = .next t := by
  obtain ⟨_, h⟩ | ⟨_, i, _, h⟩ | ⟨_, _, _, h⟩ := regWrite_cases idx w s
  · exact ⟨_, h⟩
  · exact h ▸ exec_completes i s
  · exact ⟨_, h⟩

theorem perform_writeAborted {idx : BitVec 4} {w : Word} {s done : State} (h : regWrite idx w s = .next done) :
    perform (.writeAborted idx w) s = .next (abandoned s done) := by
  simp [perform, regWriteAborted, h]

theorem perform_completes (a : HostAccess) (s : State) : ∃ t, perform a s = .next t := by
  cases a with
  | write idx w => exact regWrite_completes idx w s
  | read idx => exact ⟨_, rfl⟩
  | present raw => exact ⟨_, rfl⟩
  | reset => exact ⟨_, rfl⟩
  | writeAborted idx w =>
    obtain ⟨done, h⟩ := regWrite_completes idx w s
    exact ⟨_, perform_writeAborted h⟩

/-- Settles O51: `exec` answers a next state by `exec_eq`, and each access answers what a command does or a next
state of its own. -/
theorem everyCommandAndEveryStepCompletes : Obligations.EveryCommandAndEveryStepCompletes := by
  refine ⟨exec_completes, fun s => ?_⟩
  cases hp : s.pending with
  | nil => exact ⟨s, step_of_idle hp⟩
  | cons a rest => exact step_of_pending hp ▸ perform_completes a _

/-! ### The events each access adds (20_memory.md R59, R65) -/

theorem regRead_events (idx : BitVec 4) (s : State) : (regRead idx s).events = s.events := by
  obtain ⟨w, _, h⟩ | ⟨_, h⟩ := regRead_cases idx s <;> simp [h]

/-- An effect adds the same events when it is done for an active channel only, and none for an inactive one. -/
theorem whenActive_events {c : Ch} {f : State → State} {s : State} {new : List TimerEvent}
    (hinactive : s.active c = false → new = [])
    (hactive : s.active c = true → (f s).events = s.events ++ new) :
    (whenActive c f s).events = s.events ++ new := by
  cases ha : s.active c with
  | true => rw [whenActive_of_active ha, hactive ha]
  | false => rw [whenActive_of_inactive ha, hinactive ha, List.append_nil]

@[simp] theorem interpEffect_events (c : Ch) (s : State) : (interpEffect c s).events = s.events := by
  obtain ⟨v, h | h⟩ := interpEffect_cases c s <;> simp [h]

theorem tickChannel_chan_other (c k : Ch) (t : Int) (s : State) (hk : k ≠ c) :
    (tickChannel c t s).chan k = s.chan k := by
  simp [tickChannel, hk]

theorem tickChannel_active (c k : Ch) (t : Int) (s : State) : (tickChannel c t s).active k = s.active k := by
  simp [tickChannel]

/-- A tick is its two channels' parts, from a state that differs from `s` in `AVG` and `TEMP`. -/
theorem tickEffect_channels (s : State) : ∃ (u : State) (x : Int),
    tickEffect s = whenActive .ch1 (tickChannel .ch1 x) (whenActive .ch0 (tickChannel .ch0 x) u) ∧
      u.events = s.events ∧ ∀ c, u.active c = s.active c :=
  ⟨(s.writeAvg (smooth s.avg s.rawIn)).writeTemp (estimate (smooth s.avg s.rawIn)), _, rfl, rfl, fun _ => rfl⟩

/-- The events of each channel, said by the adapter registers of `t`, the state the command leaves: none of an inactive
channel; `configured c` the three of a configured one, `sent c` the one of a set-duty. -/
structure EventsRead (s t : State) (configured sent : Ch → List TimerEvent) : Prop where
  inactive : ∀ c, s.active c = false → configured c = [] ∧ sent c = []
  configured_eq : ∀ c p v, s.active c = true → (t.chan c).tpresc = .value p → (t.chan c).ttop = .value v →
    configured c = [⟨c, .mode 1#1⟩, ⟨c, .presc p⟩, ⟨c, .top v⟩]
  sent_eq : ∀ c v, s.active c = true → (t.chan c).tcmp = .value v → sent c = [⟨c, .cmp v⟩]

/-- The events command `i` adds in state `s` (R59, R153). -/
def commandEvents (configured sent : Ch → List TimerEvent) (s : State) : Instr → List TimerEvent
  | .init => if s.status.run then [] else configured .ch0 ++ configured .ch1
  | .config c => if s.status.run then [] else configured c
  | .setduty c pct => if s.status.run && decide (pct.toNat ≤ 100) then sent c else []
  | .tick => if s.status.run then sent .ch0 ++ sent .ch1 else []
  | .smooth _ | .estim | .interp _ => []

namespace EventsRead

variable {s t : State} {c : Ch} {configured sent : Ch → List TimerEvent}

/-- A `configure` in a state `u` on the way to `t`, with the registers `t` still holds. -/
theorem configure_events (h : EventsRead s t configured sent) {u : State} (ha : s.active c = true)
    (ht : t.chan c = (configure c u).chan c) : (configure c u).events = u.events ++ configured c := by
  rw [Machine.configure_events, h.configured_eq c _ _ ha (by rw [ht, configure_chan_self])
    (by rw [ht, configure_chan_self])]

/-- A set-duty in a state `u` on the way to `t`, with the compare value `t` still holds. -/
theorem setDuty_events (h : EventsRead s t configured sent) {u : State} {pct : Percent} (ha : s.active c = true)
    (ht : t.chan c = (setDuty c pct u).chan c) : (setDuty c pct u).events = u.events ++ sent c := by
  rw [Machine.setDuty_events, h.sent_eq c _ ha (by rw [ht, setDuty_chan_self])]

/-- One channel's part of `INIT`. -/
theorem whenActive_configure_events (h : EventsRead s t configured sent) {u : State}
    (hu : u.active c = s.active c) (ht : t.chan c = (whenActive c (configure c) u).chan c) :
    (whenActive c (configure c) u).events = u.events ++ configured c :=
  whenActive_events (fun ha => (h.inactive c (hu ▸ ha)).1) fun ha =>
    h.configure_events (hu ▸ ha) (by rw [ht, whenActive_of_active ha])

/-- One channel's part of `TICK`. -/
theorem whenActive_tickChannel_events (h : EventsRead s t configured sent) {u : State} {x : Int}
    (hu : u.active c = s.active c) (ht : t.chan c = (whenActive c (tickChannel c x) u).chan c) :
    (whenActive c (tickChannel c x) u).events = u.events ++ sent c :=
  whenActive_events (fun ha => (h.inactive c (hu ▸ ha)).2) fun ha =>
    h.setDuty_events (hu ▸ ha) (by rw [ht, whenActive_of_active ha]; rfl)

/-- Channel 0 before channel 1, and configuring channel 1 leaves what channel 0 holds. -/
theorem initEffect_events (h : EventsRead s (initEffect s) configured sent) :
    (initEffect s).events = s.events ++ (configured .ch0 ++ configured .ch1) := by
  have hfan := h.whenActive_configure_events (c := .ch0) (u := s) rfl
    (whenActive_field (·.chan .ch0) (fun u => configure_chan_other .ch1 .ch0 u (by decide)) _)
  have hpump := h.whenActive_configure_events (c := .ch1) (u := whenActive .ch0 (configure .ch0) s)
    (whenActive_field (·.active .ch1) (fun u => configure_active .ch0 .ch1 u) _) rfl
  rw [← List.append_assoc, ← hfan]
  exact hpump

/-- Channel 0 before channel 1, and the tick of channel 1 leaves what channel 0 holds. -/
theorem tickEffect_events (h : EventsRead s (tickEffect s) configured sent) :
    (tickEffect s).events = s.events ++ (sent .ch0 ++ sent .ch1) := by
  obtain ⟨u, x, htick, hevents, hactive⟩ := tickEffect_channels s
  rw [htick] at h ⊢
  have hfan := h.whenActive_tickChannel_events (c := .ch0) (hactive .ch0)
    (whenActive_field (·.chan .ch0) (fun v => tickChannel_chan_other .ch1 .ch0 x v (by decide)) _)
  have hpump := h.whenActive_tickChannel_events (c := .ch1) (u := whenActive .ch0 (tickChannel .ch0 x) u)
    ((whenActive_field (·.active .ch1) (fun v => tickChannel_active .ch0 .ch1 x v) _).trans (hactive .ch1)) rfl
  rw [hpump, hfan, hevents, List.append_assoc]

/-- A legal command adds its events. -/
theorem effectOf_events {i : Instr} (hl : s.legal i = true) (h : EventsRead s (effectOf i s) configured sent) :
    (effectOf i s).events = s.events ++ commandEvents configured sent s i := by
  cases i <;> simp only [State.legal, Bool.and_eq_true, Bool.not_eq_true'] at hl
  case init => simpa [effectOf, commandEvents, hl] using h.initEffect_events
  case config k => simpa [effectOf, commandEvents, hl.1] using h.configure_events hl.2 rfl
  case smooth raw => exact (List.append_nil _).symm
  case estim => exact (List.append_nil _).symm
  case interp k => exact (interpEffect_events k s).trans (List.append_nil _).symm
  case setduty k pct =>
    rw [effectOf] at h ⊢
    obtain hp | hp := le_or_gt pct.toNat 100
    · rw [setdutyEffect_of_ok hp] at h ⊢
      simpa [commandEvents, hl.1, hp] using h.setDuty_events hl.2 rfl
    · rw [setdutyEffect_of_excess hp]
      simp [commandEvents, Nat.not_le.2 hp]
  case tick => simpa [effectOf, commandEvents, hl] using h.tickEffect_events

/-- A refused command has no events to add. -/
theorem commandEvents_of_illegal {i : Instr} (hl : s.legal i = false) (h : EventsRead s t configured sent) :
    commandEvents configured sent s i = [] := by
  cases i <;> simp only [State.legal, Bool.and_eq_false_iff, Bool.not_eq_false'] at hl
  case init => simp [commandEvents, hl]
  case config k =>
    obtain hr | ha := hl
    · simp [commandEvents, hr]
    · simp [commandEvents, h.inactive k ha]
  case setduty k pct =>
    obtain hr | ha := hl
    · simp [commandEvents, hr]
    · simp [commandEvents, h.inactive k ha]
  case tick => simp [commandEvents, hl]
  case smooth | estim | interp => rfl

theorem exec_events {i : Instr} (he : exec i s = .next t) (h : EventsRead s t configured sent) :
    t.events = s.events ++ commandEvents configured sent s i := by
  obtain ⟨hl, rfl⟩ | ⟨hl, rfl⟩ := exec_cases he
  · exact h.effectOf_events hl
  · rw [h.commandEvents_of_illegal hl, List.append_nil, flagIllcmd_events]

end EventsRead

/-- `s` has emitted all of `before`, in that order and before anything else. -/
def State.emittedFirst (before : List TimerEvent) (s : State) : Prop := ∃ new, s.events = before ++ new

theorem emittedFirst_of_append {before new : List TimerEvent} {s t : State} (h : s.emittedFirst before)
    (ht : t.events = s.events ++ new) : t.emittedFirst before := by
  obtain ⟨old, hs⟩ := h
  exact ⟨old ++ new, by rw [ht, hs, List.append_assoc]⟩

theorem effectOf_emittedFirst (i : Instr) {before : List TimerEvent} {s : State} (h : s.emittedFirst before) :
    (effectOf i s).emittedFirst before := by
  refine effectOf_keeps (P := State.emittedFirst before) ?avg ?temp ?duty ?timer ?topovf ?pcterr ?run ?drawn i h
  case timer => exact fun c f u hu => emittedFirst_of_append hu (timerWrite_events c f u)
  case avg | temp => exact fun _ _ hu => hu
  case duty | topovf => exact fun _ _ _ hu => hu
  case pcterr | run | drawn => exact fun _ hu => hu

/-- No access takes an event back or puts one before another. -/
theorem step_emittedFirst {s t : State} (h : step s = .next t) : t.emittedFirst s.events := by
  refine step_keeps (P := State.emittedFirst s.events) h ⟨[], (List.append_nil _).symm⟩ ?accept ?present ?drawn
    ?returned ?reset ?abandon ?illcmd ?effect
  case abandon => exact fun u v hu _ => emittedFirst_of_append hu rfl
  case effect => exact fun i u hu _ => effectOf_emittedFirst i hu
  case accept | present => exact fun _ _ hu => hu
  case drawn | reset | illcmd => exact fun _ hu => hu
  case returned => exact fun _ _ _ hu => hu

/-- An access that neither is a command nor starts one that reset abandons adds no event. -/
theorem perform_events_of_no_command {a : HostAccess} {s t : State} (h : perform a s = .next t)
    (hcommand : ∀ w i, a = .write 0#4 w → decode w ≠ .command i) (habort : ∀ idx w, a ≠ .writeAborted idx w) :
    t.events = s.events := by
  cases a with
  | write idx w =>
    rw [perform] at h
    obtain ⟨_, e⟩ | ⟨rfl, i, hd, _⟩ | ⟨_, _, _, e⟩ := regWrite_cases idx w s
    · rw [e] at h
      injection h with h
      rw [h]
    · exact absurd hd (hcommand w i rfl)
    · rw [e] at h
      injection h with h
      rw [← h, flagIllcmd_events]
  | read idx =>
    injection h with h
    exact h ▸ regRead_events idx s
  | present raw =>
    injection h with h
    exact h ▸ rfl
  | reset =>
    injection h with h
    exact h ▸ resetRegisters_events s
  | writeAborted idx w => exact absurd rfl (habort idx w)

/-- Settles O53: nothing is taken back (`step_emittedFirst`), a command adds its own events (`exec_events`), a command
abandoned by reset some first ones of them, and every other access none. -/
theorem eventsAreOnlyAppended : Obligations.EventsAreOnlyAppended := by
  refine ⟨fun _ _ => step_emittedFirst, fun s t idx h => ?read, fun i s t configured sent he hin hconf hsent => ?exec,
    fun s t hp h => ?idle, fun s u t a rest hp hu h => ?access⟩
  case read =>
    injection h with h
    exact h ▸ regRead_events idx s
  case exec =>
    refine (EventsRead.exec_events he ⟨hin, hconf, hsent⟩).trans ?_
    cases i <;> rfl
  case idle =>
    rw [step_of_idle hp] at h
    injection h with h
    rw [h]
  case access =>
    rw [step_of_pending hp, ← hu] at h
    have hevents : u.events = s.events := hu ▸ rfl
    refine ⟨fun w i ha hd => ?_, fun hc hw => (perform_events_of_no_command h hc hw).trans hevents,
      fun idx w ha => ?_⟩
    · rwa [ha, perform_write_command hd] at h
    · rw [ha] at h
      obtain ⟨done, hd, rfl⟩ := regWriteAborted_cases h
      exact ⟨done, Config.freeCount done.draws, hd, hevents ▸ rfl⟩

end Sys2Proof.Machine

/-! ### Fields of a half word and rows of the opcode map (30_encoding.md R71, R74) -/

namespace Sys2Proof

theorem OpRow.hits_iff (r : OpRow) (h : Half) : r.hits h = true ↔ h &&& r.mask = r.pattern := decide_eq_true_iff

theorem opField_and (h m : Half) : opField (h &&& m) = opField h &&& opField m := BitVec.extractLsb'_and

theorem opDefined_iff (h : Half) : opDefined h = true ↔ 1 ≤ (opField h).toNat ∧ (opField h).toNat ≤ 7 := by
  simp [opDefined]

/-- Every row fixes the whole field `op`. -/
theorem opField_mask : ∀ r ∈ opcodeMap, opField r.mask = BitVec.allOnes 4 := by decide

theorem opField_of_hits {r : OpRow} (hr : r ∈ opcodeMap) {h : Half} (hit : h &&& r.mask = r.pattern) :
    opField h = opField r.pattern := by
  rw [← hit, opField_and, opField_mask r hr, BitVec.and_allOnes]

/-- No two rows have the same operation code. -/
theorem row_eq_of_opField_eq :
    ∀ r ∈ opcodeMap, ∀ q ∈ opcodeMap, opField r.pattern = opField q.pattern → r = q := by decide

theorem rows_disjoint {r q : OpRow} (hr : r ∈ opcodeMap) (hq : q ∈ opcodeMap) {h : Half}
    (hrh : h &&& r.mask = r.pattern) (hqh : h &&& q.mask = q.pattern) : r = q :=
  row_eq_of_opField_eq r hr q hq ((opField_of_hits hr hrh).symm.trans (opField_of_hits hq hqh))

theorem opDefined_pattern : ∀ r ∈ opcodeMap, opDefined r.pattern = true := by decide

theorem opDefined_of_hits {r : OpRow} (hr : r ∈ opcodeMap) {h : Half} (hit : h &&& r.mask = r.pattern) :
    opDefined h = true := by
  rw [opDefined_iff, opField_of_hits hr hit, ← opDefined_iff]
  exact opDefined_pattern r hr

theorem rowOf_mem (i : Instr) : rowOf i ∈ opcodeMap := by
  cases i <;> simp [rowOf, opcodeMap]

theorem exists_rowOf_eq {r : OpRow} (hr : r ∈ opcodeMap) : ∃ i, rowOf i = r := by
  simp only [opcodeMap, List.mem_cons, List.not_mem_nil, or_false] at hr
  obtain rfl | rfl | rfl | rfl | rfl | rfl | rfl := hr
  · exact ⟨.init, rfl⟩
  · exact ⟨.config .ch0, rfl⟩
  · exact ⟨.smooth 0, rfl⟩
  · exact ⟨.estim, rfl⟩
  · exact ⟨.interp .ch0, rfl⟩
  · exact ⟨.setduty .ch0 0, rfl⟩
  · exact ⟨.tick, rfl⟩

/-! ### What a half word decodes to (30_encoding.md R74, R75) -/

/-- The command of the same row, its operands read from the fields of `h` (R72). -/
def Instr.reread (h : Half) : Instr → Instr
  | .init => .init
  | .config _ => .config (chField h)
  | .smooth _ => .smooth (rawField h)
  | .estim => .estim
  | .interp _ => .interp (chField h)
  | .setduty _ _ => .setduty (chField h) (pctField h)
  | .tick => .tick

@[simp] theorem rowOf_reread (h : Half) (i : Instr) : rowOf (i.reread h) = rowOf i := by cases i <;> rfl

@[simp] theorem reread_reread (h : Half) (i : Instr) : (i.reread h).reread h = i.reread h := by cases i <;> rfl

/-- A half word that hits a row decodes as that row: the tests of the other rows fail. -/
theorem decodeHalf_of_hits {h : Half} {i : Instr} (hit : h &&& (rowOf i).mask = (rowOf i).pattern) :
    decodeHalf h = some (i.reread h) := by
  have hits : ∀ q ∈ opcodeMap, q.hits h = decide (q = rowOf i) := by
    intro q hq
    rw [Bool.eq_iff_iff, OpRow.hits_iff, decide_eq_true_iff]
    exact ⟨fun hqh => rows_disjoint hq (rowOf_mem i) hqh hit, fun e => e ▸ hit⟩
  simp only [opcodeMap, List.forall_mem_cons] at hits
  obtain ⟨hinit, hconfig, hsmooth, hestim, hinterp, hsetduty, htick, -⟩ := hits
  rw [decodeHalf, hinit, hconfig, hsmooth, hestim, hinterp, hsetduty, htick]
  cases i <;> rfl

theorem decodeHalf_of_no_hit {h : Half} (hno : ∀ r ∈ opcodeMap, h &&& r.mask ≠ r.pattern) : decodeHalf h = none := by
  have hits : ∀ r ∈ opcodeMap, ¬r.hits h = true := fun r hr hit => hno r hr ((r.hits_iff h).1 hit)
  simp only [opcodeMap, List.forall_mem_cons] at hits
  simp [decodeHalf, hits]

/-- A half word decodes to a command exactly when it hits the command's row and its fields hold the command's operands. -/
theorem decodeHalf_eq_some_iff {h : Half} {i : Instr} :
    decodeHalf h = some i ↔ h &&& (rowOf i).mask = (rowOf i).pattern ∧ i.reread h = i := by
  refine ⟨fun hd => ?_, fun ⟨hit, hi⟩ => hi ▸ decodeHalf_of_hits hit⟩
  by_cases hno : ∀ r ∈ opcodeMap, h &&& r.mask ≠ r.pattern
  · simp [decodeHalf_of_no_hit hno] at hd
  · push Not at hno
    obtain ⟨r, hr, hit⟩ := hno
    obtain ⟨j, rfl⟩ := exists_rowOf_eq hr
    obtain rfl : j.reread h = i := Option.some.inj ((decodeHalf_of_hits hit).symm.trans hd)
    rw [rowOf_reread, reread_reread]
    exact ⟨hit, rfl⟩

theorem hits_iff_decodeHalf {r : OpRow} (hr : r ∈ opcodeMap) (h : Half) :
    h &&& r.mask = r.pattern ↔ ∃ i, decodeHalf h = some i ∧ rowOf i = r := by
  constructor
  · intro hit
    obtain ⟨i, rfl⟩ := exists_rowOf_eq hr
    exact ⟨i.reread h, decodeHalf_of_hits hit, rowOf_reread h i⟩
  · rintro ⟨i, hd, rfl⟩
    exact (decodeHalf_eq_some_iff.1 hd).1

theorem decodeHalf_eq_none_iff {h : Half} :
    decodeHalf h = none ↔ ∀ r ∈ opcodeMap, h &&& r.mask ≠ r.pattern := by
  refine ⟨fun hd r hr hit => ?_, decodeHalf_of_no_hit⟩
  obtain ⟨i, hi, _⟩ := (hits_iff_decodeHalf hr h).1 hit
  simp [hd] at hi

/-- Settles O5: the table is written out, any two rows differ in their operation code (`rows_disjoint`), and
`hits_iff_decodeHalf` says which half words decode as a row. -/
theorem opcodeMapIsAsStatedAndDisjoint : Obligations.OpcodeMapIsAsStatedAndDisjoint :=
  ⟨rfl, fun _ hr _ hq _ => rows_disjoint hr hq, fun _ hr => hits_iff_decodeHalf hr⟩

/-! ### What a value written to `CMD` decodes to (30_encoding.md R75, R79) -/

theorem decode_eq_command_iff {w : Word} {i : Instr} :
    decode w = .command i ↔ w.extractLsb' 16 16 = 0#16 ∧ decodeHalf (w.extractLsb' 0 16) = some i := by
  by_cases hup : w.extractLsb' 16 16 = 0#16
  · cases hd : decodeHalf (w.extractLsb' 0 16) with
    | some j => simp [decode, hup, hd]
    | none => cases ho : opDefined (w.extractLsb' 0 16) <;> simp [decode, hup, hd, ho]
  · simp [decode, hup]

theorem decode_eq_undefinedOp_iff {w : Word} (hup : w.extractLsb' 16 16 = 0#16) :
    decode w = .illegal .undefinedOp ↔
      decodeHalf (w.extractLsb' 0 16) = none ∧ opDefined (w.extractLsb' 0 16) = false := by
  cases hd : decodeHalf (w.extractLsb' 0 16) with
  | some j => simp [decode, hup, hd]
  | none => cases ho : opDefined (w.extractLsb' 0 16) <;> simp [decode, hup, hd, ho]

theorem decode_eq_illegal_iff {w : Word} :
    (∃ why, decode w = .illegal why) ↔
      w.extractLsb' 16 16 ≠ 0#16 ∨ decodeHalf (w.extractLsb' 0 16) = none := by
  have hcommand : (∃ why, decode w = .illegal why) ↔ ∀ i, decode w ≠ .command i := by
    cases decode w <;> simp
  simp only [hcommand, Ne, decode_eq_command_iff, not_and, ← imp_iff_not_or, Option.eq_none_iff_forall_ne_some]
  exact forall_comm

theorem opField_low (w : Word) : opField (w.extractLsb' 0 16) = w.extractLsb' 12 4 := by
  ext k hk
  simp [opField]

/-- An undefined operation code hits no row, so the low half alone decides. -/
theorem undefinedOp_iff {w : Word} (hup : w.extractLsb' 16 16 = 0#16) :
    ((w.extractLsb' 12 4).toNat = 0 ∨ 8 ≤ (w.extractLsb' 12 4).toNat) ↔ decode w = .illegal .undefinedOp := by
  have hnone : opDefined (w.extractLsb' 0 16) = false → decodeHalf (w.extractLsb' 0 16) = none := fun hop =>
    decodeHalf_of_no_hit fun r hr hit => by simp [opDefined_of_hits hr hit] at hop
  rw [decode_eq_undefinedOp_iff hup, and_iff_right_of_imp hnone, ← Bool.not_eq_true, opDefined_iff, opField_low]
  omega

open Machine in
/-- Settles O6: an illegal value is one that decodes to no command, and a write of it is the refusal
`perform_write_illegal`. -/
theorem illegalWordsAreExactlyThoseOfNoRow : Obligations.IllegalWordsAreExactlyThoseOfNoRow := by
  refine ⟨fun w => ?_, fun w => undefinedOp_iff, fun w why s h => perform_write_illegal h s⟩
  rw [decode_eq_illegal_iff, decodeHalf_eq_none_iff]

/-! ### Encoding and decoding (30_encoding.md R71 to R74) -/

/-- The low half of a word built from its fields holds the field `imm`. -/
theorem rawField_assemble (op : BitVec 4) (ch : BitVec 1) (imm : BitVec 10) :
    rawField ((assemble op ch imm).extractLsb' 0 16) = imm := by
  ext k hk
  simp [rawField, assemble, BitVec.getLsbD_eq_getElem hk, show k < 11 ∧ k < 12 ∧ k < 16 ∧ k < 32 by omega]

theorem pctField_eq (h : Half) : pctField h = (rawField h).setWidth 7 := by
  ext k hk
  simp [pctField, rawField, show k < 10 by omega]

/-- The low half of a word built from its fields holds the field `ch`. -/
theorem chField_assemble (op : BitVec 4) (c : Ch) (imm : BitVec 10) :
    chField ((assemble op (chBit c) imm).extractLsb' 0 16) = c := by
  cases c <;> simp [chField, chBit, assemble]

/-- The encoding of a command meets its row (R74). -/
theorem encode_matchesRow (i : Instr) : Laws.EncodingMatchesRow.Statement i := by
  cases i with
  | init => exact Laws.EncodingMatchesRow.init
  | config c => exact Laws.EncodingMatchesRow.config c
  | smooth raw => exact Laws.EncodingMatchesRow.smooth raw
  | estim => exact Laws.EncodingMatchesRow.estim
  | interp c => exact Laws.EncodingMatchesRow.interp c
  | setduty c pct => exact Laws.EncodingMatchesRow.setduty c pct
  | tick => exact Laws.EncodingMatchesRow.tick

/-- The fields of an encoding hold the command's operands: no operand bit is dropped. -/
theorem reread_encode (i : Instr) : i.reread ((encode i).extractLsb' 0 16) = i := by
  cases i with
  | init | estim | tick => rfl
  | config c | interp c => simp only [Instr.reread, encode, chField_assemble]
  | smooth raw => simp only [Instr.reread, encode, rawField_assemble]
  | setduty c pct => simp [Instr.reread, encode, chField_assemble, pctField_eq, rawField_assemble]

/-- Settles O3: the encoding hits the command's row (`encode_matchesRow`), and its fields hold the command's operands
(`reread_encode`). -/
theorem decodeOfEncodeIsTheCommand : Obligations.DecodeOfEncodeIsTheCommand := by
  intro i
  obtain ⟨hup, hit⟩ := encode_matchesRow i
  exact decode_eq_command_iff.2 ⟨hup, decodeHalf_eq_some_iff.2 ⟨hit, reread_encode i⟩⟩

theorem chField_eq_iff (h g : Half) : chField h = chField g ↔ h.getLsbD 11 = g.getLsbD 11 := by
  unfold chField
  cases h.getLsbD 11 <;> cases g.getLsbD 11 <;> decide

/-- Each bit a row does not fix belongs to an operand. -/
theorem getLsbD_eq_of_reread_eq {h g : Half} {i : Instr} (hops : i.reread h = i.reread g) {k : Nat} (hk : k < 16)
    (hfree : (rowOf i).mask.getLsbD k = false) : h.getLsbD k = g.getLsbD k := by
  have ch_bit (hk : k = 11) (hch : chField h = chField g) : h.getLsbD k = g.getLsbD k := hk ▸ (chField_eq_iff h g).1 hch
  cases i with
  | init | estim | tick =>
    have hfull : ∀ j < 16, (0xFFFF#16).getLsbD j = true := by decide
    exact absurd (hfull k hk) (ne_true_of_eq_false hfree)
  | config _ | interp _ =>
    have hbit : ∀ j < 16, (0xF7FF#16).getLsbD j = false → j = 11 := by decide
    exact ch_bit (hbit k hk hfree) (by simpa [Instr.reread] using hops)
  | smooth _ =>
    have hbit : ∀ j < 16, (0xFC00#16).getLsbD j = false → j < 10 := by decide
    have hraw : rawField h = rawField g := by simpa [Instr.reread] using hops
    simpa [rawField, hbit k hk hfree] using congrArg (·.getLsbD k) hraw
  | setduty _ _ =>
    have hbit : ∀ j < 16, (0xF780#16).getLsbD j = false → j = 11 ∨ j < 7 := by decide
    obtain ⟨hch, hpct⟩ : chField h = chField g ∧ pctField h = pctField g := by simpa [Instr.reread] using hops
    obtain h11 | h7 := hbit k hk hfree
    · exact ch_bit h11 hch
    · simpa [pctField, h7] using congrArg (·.getLsbD k) hpct

/-- A half word is made of its row and its operands. -/
theorem half_eq_of_reread_eq {h g : Half} {i : Instr} (hh : h &&& (rowOf i).mask = (rowOf i).pattern)
    (hg : g &&& (rowOf i).mask = (rowOf i).pattern) (hops : i.reread h = i.reread g) : h = g := by
  refine BitVec.eq_of_getLsbD_eq fun k hk => ?_
  cases hfix : (rowOf i).mask.getLsbD k with
  | false => exact getLsbD_eq_of_reread_eq hops hk hfix
  | true => simpa [hfix] using congrArg (·.getLsbD k) (hh.trans hg.symm)

theorem word_eq_of_halves {w v : Word} (hup : w.extractLsb' 16 16 = v.extractLsb' 16 16)
    (hlow : w.extractLsb' 0 16 = v.extractLsb' 0 16) : w = v := by
  refine BitVec.eq_of_getLsbD_eq fun k hk => ?_
  obtain hlo | hhi := lt_or_ge k 16
  · simpa [hlo] using congrArg (·.getLsbD k) hlow
  · simpa [show k - 16 < 16 ∧ 16 + (k - 16) = k by omega] using congrArg (·.getLsbD (k - 16)) hup

/-- Settles O4: the value and the encoding hit the same row with the same operands (`half_eq_of_reread_eq`), and both
have a zero upper half. -/
theorem encodeOfDecodeIsTheWord : Obligations.EncodeOfDecodeIsTheWord := by
  intro w i hd
  obtain ⟨hup, hlow⟩ := decode_eq_command_iff.1 hd
  obtain ⟨hit, hops⟩ := decodeHalf_eq_some_iff.1 hlow
  obtain ⟨heup, hehit⟩ := encode_matchesRow i
  exact word_eq_of_halves (heup.trans hup.symm)
    (half_eq_of_reread_eq hehit hit ((reread_encode i).trans hops.symm))

/-- Settles O7: the spot words of R77, each decoded. -/
theorem assemblerWordsDecode : Obligations.AssemblerWordsDecode := by
  unfold Obligations.AssemblerWordsDecode
  decide

end Sys2Proof

/-! ### Where each command is refused (30_encoding.md R76) -/

namespace Sys2Proof.Machine

/-- Settles O10: each condition makes `State.legal` false, and a command that is not legal is refused
(`exec_of_illegal`). -/
theorem commandsAreRefusedByStateAndChannel : Obligations.CommandsAreRefusedByStateAndChannel := by
  rintro s _ rfl
  refine ⟨fun hrun => ?running, fun hrun => ?before, fun c => ?active, fun c hc => ?inactive⟩
  case running =>
    exact ⟨exec_of_illegal (by simp [State.legal, hrun]), fun _ => exec_of_illegal (by simp [State.legal, hrun])⟩
  case before =>
    refine ⟨exec_of_illegal hrun, exec_of_illegal hrun, fun _ => exec_of_illegal hrun, fun _ => ⟨?_, fun _ => ?_⟩⟩ <;>
      exact exec_of_illegal (by simp [State.legal, hrun])
  case active => cases c <;> rfl
  case inactive => refine ⟨?_, ?_, fun _ => ?_⟩ <;> exact exec_of_illegal (by simp [State.legal, hc])

end Sys2Proof.Machine

/-! ### Curve tables (40_curve_interpolator.md R91) -/

namespace Sys2Proof

/-- A transitive relation between neighbouring rows holds between all rows. -/
theorem chained_iff_pairwise {r : Breakpoint → Breakpoint → Prop} [DecidableRel r]
    (htrans : ∀ {a b c}, r a b → r b c → r a c) (curve : List Breakpoint) :
    chained (fun a b => decide (r a b)) curve = true ↔ curve.Pairwise r := by
  have : Trans r r r := ⟨htrans⟩
  rw [← List.isChain_iff_pairwise]
  induction curve with
  | nil => simp [chained]
  | cons a rest ih =>
    cases rest with
    | nil => simp [chained]
    | cons b rest => simp [chained, ih]

theorem curveTempsRise_iff (curve : List Breakpoint) :
    curveTempsRise curve = true ↔ curve.Pairwise fun a b => a.t.toInt < b.t.toInt :=
  chained_iff_pairwise (r := fun a b => a.t.toInt < b.t.toInt) lt_trans curve

theorem curveDutiesRise_iff (curve : List Breakpoint) :
    curveDutiesRise curve = true ↔ curve.Pairwise fun a b => a.d.toNat ≤ b.d.toNat :=
  chained_iff_pairwise (r := fun a b => a.d.toNat ≤ b.d.toNat) le_trans curve

theorem curveDutiesInRange_iff (curve : List Breakpoint) :
    curveDutiesInRange curve = true ↔ ∀ r ∈ curve, r.d.toNat ≤ 100 := by simp [curveDutiesInRange]

/-- The rows before a row are colder than it. -/
theorem rows_before_le {before rest : List Breakpoint} {lo : Breakpoint} {t : Int}
    (hrise : curveTempsRise (before ++ lo :: rest) = true) (ht : lo.t.toInt ≤ t) :
    ∀ r ∈ before ++ [lo], r.t.toInt ≤ t := by
  obtain ⟨_, _, hbefore⟩ := List.pairwise_append.1 ((curveTempsRise_iff _).1 hrise)
  rintro r hr
  obtain hr | rfl : r ∈ before ∨ r = lo := by simpa using hr
  · exact (hbefore r hr lo (by simp)).le.trans ht
  · exact ht

end Sys2Proof

/-! ### The curve interpolator (40_curve_interpolator.md R93 to R97) -/

namespace Sys2Proof.Machine

/-- The numerator of the last line of R93. -/
def interpNum (lo hi : Breakpoint) (t : Int) : Int :=
  (lo.d.toNat : Int) * (hi.t.toInt - t) + (hi.d.toNat : Int) * (t - lo.t.toInt)

theorem interpBetween_eq (lo hi : Breakpoint) (t : Int) :
    interpBetween lo hi t = BitVec.ofInt 7 ((interpNum lo hi t).tdiv (hi.t.toInt - lo.t.toInt)) := rfl

theorem interpNum_nonneg {lo hi : Breakpoint} {t : Int} (hlo : lo.t.toInt ≤ t) (hhi : t < hi.t.toInt) :
    0 ≤ interpNum lo hi t :=
  add_nonneg (mul_nonneg (by omega) (by omega)) (mul_nonneg (by omega) (by omega))

/-- With weights of sum `hi.t - lo.t`, duties of at most 100 give at most 100 times it. -/
theorem interpNum_le {lo hi : Breakpoint} {t : Int} (hd : lo.d.toNat ≤ 100) (hd' : hi.d.toNat ≤ 100)
    (hlo : lo.t.toInt ≤ t) (hhi : t < hi.t.toInt) : interpNum lo hi t ≤ 100 * (hi.t.toInt - lo.t.toInt) :=
  calc interpNum lo hi t ≤ 100 * (hi.t.toInt - t) + 100 * (t - lo.t.toInt) :=
        add_le_add (mul_le_mul_of_nonneg_right (by omega) (by omega)) (mul_le_mul_of_nonneg_right (by omega) (by omega))
    _ = 100 * (hi.t.toInt - lo.t.toInt) := by ring

/-- The numerator is linear in the temperature, with the difference of the duties as its slope. -/
theorem interpNum_mono {lo hi : Breakpoint} {t u : Int} (hd : lo.d.toNat ≤ hi.d.toNat) (htu : t ≤ u) :
    interpNum lo hi t ≤ interpNum lo hi u := by
  have hslope : interpNum lo hi u - interpNum lo hi t = ((hi.d.toNat : Int) - lo.d.toNat) * (u - t) := by
    unfold interpNum
    ring
  have hnonneg : 0 ≤ ((hi.d.toNat : Int) - lo.d.toNat) * (u - t) := mul_nonneg (by omega) (by omega)
  omega

/-- The 7 bits of the result hold the whole quotient: it is a mean of two 7-bit duties. -/
theorem interpBetween_toNat {lo hi : Breakpoint} {t : Int} (hlo : lo.t.toInt ≤ t) (hhi : t < hi.t.toInt) :
    ((interpBetween lo hi t).toNat : Int) = interpNum lo hi t / (hi.t.toInt - lo.t.toInt) := by
  have hmean := weightedMean_bounds lo.d.toNat hi.d.toNat (x := hi.t.toInt - t) (y := t - lo.t.toInt)
    (by omega) (by omega) (by omega)
  rw [sub_add_sub_cancel, ← interpNum] at hmean
  rw [interpBetween_eq, Int.tdiv_eq_ediv_of_nonneg (interpNum_nonneg hlo hhi), BitVec.toNat_ofInt]
  have := lo.d.isLt
  have := hi.d.isLt
  omega

theorem interpBetween_mono {lo hi : Breakpoint} {t u : Int} (hd : lo.d.toNat ≤ hi.d.toNat) (hlo : lo.t.toInt ≤ t)
    (htu : t ≤ u) (hhi : u < hi.t.toInt) : (interpBetween lo hi t).toNat ≤ (interpBetween lo hi u).toNat := by
  rw [← Int.ofNat_le, interpBetween_toNat hlo (htu.trans_lt hhi), interpBetween_toNat (hlo.trans htu) hhi]
  exact Int.ediv_le_ediv (by omega) (interpNum_mono hd htu)

theorem interpBetween_lo {lo hi : Breakpoint} (h : lo.t.toInt < hi.t.toInt) :
    interpBetween lo hi lo.t.toInt = lo.d := by
  have hq : interpNum lo hi lo.t.toInt / (hi.t.toInt - lo.t.toInt) = lo.d.toNat := by
    simp only [interpNum, sub_self, mul_zero, add_zero]
    exact Int.mul_ediv_cancel _ (by omega)
  exact BitVec.eq_of_toNat_eq (Int.ofNat_inj.1 ((interpBetween_toNat le_rfl h).trans hq))

/-! #### The scan -/

theorem interpFrom_of_lt {lo hi : Breakpoint} {rest : List Breakpoint} {t : Int} (h : t < hi.t.toInt) :
    interpFrom lo (hi :: rest) t = interpBetween lo hi t := if_pos h

theorem interpFrom_of_le {lo hi : Breakpoint} {rest : List Breakpoint} {t : Int} (h : hi.t.toInt ≤ t) :
    interpFrom lo (hi :: rest) t = interpFrom hi rest t := if_neg (not_lt.2 h)

theorem interp_of_lt {first : Breakpoint} {rest : List Breakpoint} {t : Int} (h : t < first.t.toInt) :
    interp (first :: rest) t = first.d := if_pos h

theorem interp_of_le {first : Breakpoint} {rest : List Breakpoint} {t : Int} (h : first.t.toInt ≤ t) :
    interp (first :: rest) t = interpFrom first rest t := if_neg (not_lt.2 h)

/-- The scan passes rows that do not exceed the temperature. -/
theorem interpFrom_append {before rest : List Breakpoint} {lo : Breakpoint} {t : Int}
    (h : ∀ r ∈ before ++ [lo], r.t.toInt ≤ t) (first : Breakpoint) :
    interpFrom first (before ++ lo :: rest) t = interpFrom lo rest t := by
  induction before generalizing first with
  | nil => exact interpFrom_of_le (h lo (by simp))
  | cons r before ih =>
    rw [List.cons_append, interpFrom_of_le (h r (by simp))]
    exact ih (fun q hq => h q (List.mem_cons_of_mem r hq)) r

/-- After the rows that do not exceed the temperature the scan stands at the last of them. -/
theorem interp_append {before rest : List Breakpoint} {lo : Breakpoint} {t : Int}
    (h : ∀ r ∈ before ++ [lo], r.t.toInt ≤ t) : interp (before ++ lo :: rest) t = interpFrom lo rest t := by
  cases before with
  | nil => exact interp_of_le (h lo (by simp))
  | cons first before =>
    rw [List.cons_append, interp_of_le (h first (by simp))]
    exact interpFrom_append (fun r hr => h r (List.mem_cons_of_mem first hr)) first

theorem interp_of_forall_le {curve : List Breakpoint} {t : Int} (h : ∀ r ∈ curve, r.t.toInt ≤ t) :
    interp curve t = 100#7 := by
  obtain rfl | ⟨before, last, rfl⟩ := List.eq_nil_or_concat' curve
  · rfl
  · exact interp_append h

/-- Between two neighbouring rows, the first of them the last row not to exceed the temperature. -/
theorem interp_eq_interpBetween {before after : List Breakpoint} {lo hi : Breakpoint} {t : Int}
    (h : ∀ r ∈ before ++ [lo], r.t.toInt ≤ t) (hhi : t < hi.t.toInt) :
    interp (before ++ lo :: hi :: after) t = interpBetween lo hi t := (interp_append h).trans (interpFrom_of_lt hhi)

/-- Settles O22: no row exceeds the temperature (`interp_of_forall_le`), the first does (`interp_of_lt`), or a row after
one that does not (`interp_eq_interpBetween`). -/
theorem interpFollowsTheIndexScan : Obligations.InterpFollowsTheIndexScan := by
  refine fun curve t => ⟨interp_of_forall_le, ?first, ?between⟩
  case first =>
    rintro first rest rfl ht
    exact interp_of_lt ht
  case between =>
    rintro before after lo hi rfl hbefore hhi
    exact interp_eq_interpBetween hbefore hhi

/-- Settles O23: rising temperatures make the rows before `lo` colder than it, so the scan stops between `lo` and `hi`,
where `interpBetween_bounds` holds. -/
theorem interpIsAPercentage : Obligations.InterpIsAPercentage := by
  refine fun curve t _ hrise hrange => ⟨interp_toNat_le hrange t, ?_⟩
  rintro lo hi ⟨before, after, rfl⟩ hlo hhi
  rw [List.append_assoc, List.cons_append, List.singleton_append] at hrise ⊢
  rw [interp_eq_interpBetween (rows_before_le hrise hlo) hhi]
  exact interpBetween_bounds hlo hhi

theorem fxInt_bounds (w : Word) : -524288 ≤ fxInt w ∧ fxInt w ≤ 524287 := by
  have hlo := BitVec.le_toInt w
  have hhi := BitVec.toInt_lt (x := w)
  simp only [fxInt, asr12]
  omega

/-- Settles O24: two signed 16-bit temperatures differ by at most 65535, which bounds the numerator (`interpNum_le`),
and the quotient fits in 7 bits (`interpBetween_toNat`). -/
theorem interpFitsItsDatapath : Obligations.InterpFitsItsDatapath := by
  refine ⟨fxInt_bounds, ?_⟩
  rintro lo hi t _ hd hd' hlo hhi rfl
  have hspan : hi.t.toInt - lo.t.toInt ≤ 65535 := by
    have := BitVec.le_toInt lo.t
    have := BitVec.toInt_lt (x := hi.t)
    omega
  have hnum := interpNum_le hd hd' hlo hhi
  exact ⟨by omega, by omega, hspan, interpNum_nonneg hlo hhi, hnum.trans (by omega), interpBetween_toNat hlo hhi⟩

/-! #### Monotonicity (R96) -/

/-- From a row on, a table with rising duties gives no less than that row's duty. -/
theorem le_interpFrom {rest : List Breakpoint} {lo : Breakpoint} {t : Int}
    (hrise : (lo :: rest).Pairwise fun a b => a.d.toNat ≤ b.d.toNat) (hrange : ∀ r ∈ lo :: rest, r.d.toNat ≤ 100)
    (ht : lo.t.toInt ≤ t) : lo.d.toNat ≤ (interpFrom lo rest t).toNat := by
  induction rest generalizing lo with
  | nil => exact hrange lo (by simp)
  | cons hi rest ih =>
    obtain ⟨hlo, htail⟩ := List.pairwise_cons.1 hrise
    have hd : lo.d.toNat ≤ hi.d.toNat := hlo hi (by simp)
    obtain hhi | hhi := lt_or_ge t hi.t.toInt
    · rw [interpFrom_of_lt hhi]
      exact (le_min le_rfl hd).trans (interpBetween_bounds ht hhi).1
    · rw [interpFrom_of_le hhi]
      exact hd.trans (ih htail (fun r hr => hrange r (List.mem_cons_of_mem lo hr)) hhi)

/-- Two temperatures on one segment are ordered by `interpBetween_mono`; on two, by the duty of the row between them. -/
theorem interpFrom_mono {rest : List Breakpoint} {lo : Breakpoint} {t u : Int}
    (hrise : (lo :: rest).Pairwise fun a b => a.d.toNat ≤ b.d.toNat) (hrange : ∀ r ∈ lo :: rest, r.d.toNat ≤ 100)
    (ht : lo.t.toInt ≤ t) (htu : t ≤ u) : (interpFrom lo rest t).toNat ≤ (interpFrom lo rest u).toNat := by
  induction rest generalizing lo with
  | nil => exact le_rfl
  | cons hi rest ih =>
    obtain ⟨hlo, htail⟩ := List.pairwise_cons.1 hrise
    have hd : lo.d.toNat ≤ hi.d.toNat := hlo hi (by simp)
    have hrange' : ∀ r ∈ hi :: rest, r.d.toNat ≤ 100 := fun r hr => hrange r (List.mem_cons_of_mem lo hr)
    obtain hu | hu := lt_or_ge u hi.t.toInt
    · rw [interpFrom_of_lt hu, interpFrom_of_lt (htu.trans_lt hu)]
      exact interpBetween_mono hd ht htu hu
    · rw [interpFrom_of_le hu]
      obtain hthi | hthi := lt_or_ge t hi.t.toInt
      · rw [interpFrom_of_lt hthi]
        exact ((interpBetween_bounds ht hthi).2.trans (max_le hd le_rfl)).trans (le_interpFrom htail hrange' hu)
      · rw [interpFrom_of_le hthi]
        exact ih htail hrange' hthi

/-- A higher temperature never gives a lower duty, for rising duties of at most 100. -/
theorem interp_mono {curve : List Breakpoint} (hrise : curveDutiesRise curve = true)
    (hrange : curveDutiesInRange curve = true) {t u : Int} (htu : t ≤ u) :
    (interp curve t).toNat ≤ (interp curve u).toNat := by
  rw [curveDutiesRise_iff] at hrise
  rw [curveDutiesInRange_iff] at hrange
  cases curve with
  | nil => exact le_rfl
  | cons first rest =>
    obtain ht | ht := lt_or_ge t first.t.toInt
    · rw [interp_of_lt ht]
      obtain hu | hu := lt_or_ge u first.t.toInt
      · rw [interp_of_lt hu]
      · rw [interp_of_le hu]
        exact le_interpFrom hrise hrange hu
    · rw [interp_of_le ht, interp_of_le (ht.trans htu)]
      exact interpFrom_mono hrise hrange ht htu

/-- Every breakpoint but the last gives exactly its duty. -/
theorem interp_breakpoint {before after : List Breakpoint} {lo hi : Breakpoint}
    (hrise : curveTempsRise (before ++ lo :: hi :: after) = true) :
    interp (before ++ lo :: hi :: after) lo.t.toInt = lo.d := by
  obtain ⟨_, htail, _⟩ := List.pairwise_append.1 ((curveTempsRise_iff _).1 hrise)
  have hlt : lo.t.toInt < hi.t.toInt := List.rel_of_pairwise_cons htail (by simp)
  rw [interp_eq_interpBetween (rows_before_le hrise le_rfl) hlt, interpBetween_lo hlt]

theorem interp_getElem {curve : List Breakpoint} (hrise : curveTempsRise curve = true) {i : Nat} {r : Breakpoint}
    (hi : i + 1 < curve.length) (hr : curve[i]? = some r) : interp curve r.t.toInt = r.d := by
  have hcut : curve = curve.take i ++ r :: curve[i + 1] :: curve.drop (i + 2) := by
    obtain ⟨hlt, rfl⟩ := List.getElem?_eq_some_iff.1 hr
    rw [← List.drop_eq_getElem_cons, ← List.drop_eq_getElem_cons, List.take_append_drop]
  rw [hcut] at hrise ⊢
  exact interp_breakpoint hrise

theorem interp_of_getLast_le {curve : List Breakpoint} (hrise : curveTempsRise curve = true) {last : Breakpoint}
    {t : Int} (hlast : curve.getLast? = some last) (ht : last.t.toInt ≤ t) : interp curve t = 100#7 := by
  obtain ⟨before, rfl⟩ := List.getLast?_eq_some_iff.1 hlast
  exact interp_of_forall_le (rows_before_le hrise ht)

theorem interp_of_le_head {curve : List Breakpoint} (hlength : 2 ≤ curve.length) (hrise : curveTempsRise curve = true)
    {first : Breakpoint} {t : Int} (hfirst : curve.head? = some first) (ht : t ≤ first.t.toInt) :
    interp curve t = first.d := by
  obtain hlt | rfl := ht.lt_or_eq
  · obtain ⟨rest, rfl⟩ := List.head?_eq_some_iff.1 hfirst
    exact interp_of_lt hlt
  · exact interp_getElem hrise hlength (List.head?_eq_getElem? ▸ hfirst)

/-- Settles O25: the clauses of R96 from R91 (a) to (d), each a lemma above. -/
theorem interpIsMonotoneWithFloorAndCeiling : Obligations.InterpIsMonotoneWithFloorAndCeiling := by
  intro curve hwf
  simp only [curveWf, curveLengthOk, Bool.and_eq_true, decide_eq_true_eq] at hwf
  obtain ⟨⟨⟨⟨⟨hlength, _⟩, htemps⟩, hrange⟩, hduties⟩, _⟩ := hwf
  exact ⟨fun _ _ => interp_of_getLast_le htemps, fun _ _ => interp_of_le_head hlength htemps,
    fun _ _ => interp_mono hduties hrange, fun _ _ => interp_getElem htemps⟩

/-- Settles O20: with a temperature the effect is the write of the interpolated duty (`interpEffect_of_value`), and a
command that is not legal is refused (`exec_of_illegal`). -/
theorem interpWritesTheInterpolatedDuty : Obligations.InterpWritesTheInterpolatedDuty := by
  refine ⟨by decide, by decide, fun s c => ⟨fun w hrun hactive htemp => ?_, fun h => exec_of_illegal ?_⟩⟩
  · have hlegal : s.legal (.interp c) = true := by simp [State.legal, hrun, hactive]
    rw [exec_of_legal hlegal, effectOf, interpEffect_of_value htemp, fxInt_eq_shift]
    cases c <;> rfl
  · obtain h | h := h <;> simp [State.legal, h]

end Sys2Proof.Machine

namespace Sys2Proof.Machine

/-! ### The temperature estimator (41_temperature_estimator.md) -/

/-- The constants of R102 as words, on every word (log entry 13). -/
theorem estimate_eq (a : Word) :
    estimate a = BitVec.ofInt 32 ((2088960#32 - a).toInt.tdiv (-10)) + 102400#32 := by
  have hk : fx calK = 2088960#32 := by decide
  have ht : fx tRef = 102400#32 := by decide
  rw [estimate, hk, ht]
  rfl

/-- The closed form of R102: truncating division commutes with both changes of sign. -/
theorem estimate_toInt_closed {a : Word} (h : a.toNat ≤ 4190208) :
    (estimate a).toInt = 102400 + ((a.toNat : Int) - 2088960).tdiv 10 := by
  rw [estimate_toInt h, Int.tdiv_neg, ← Int.neg_tdiv, neg_sub, add_comm]

/-- Settles O18: `estimate_eq` on every word, and in range the two closed forms. -/
theorem estimateIsTheLinearFormula : Obligations.EstimateIsTheLinearFormula :=
  ⟨estimate_eq, fun _ h => ⟨estimate_toInt h, estimate_toInt_closed h⟩⟩

/-- From `fx(510)` up the quotient is rounded down. -/
theorem estimate_toInt_of_ge {a : Word} (h : a.toNat ≤ 4190208) (hk : 2088960 ≤ a.toNat) :
    (estimate a).toInt = 102400 + ((a.toNat : Int) - 2088960) / 10 := by
  rw [estimate_toInt_closed h, Int.tdiv_eq_ediv_of_nonneg (by omega)]

/-- Up to `fx(510)` the quotient is rounded up: the distance below is rounded down. -/
theorem estimate_toInt_of_le {a : Word} (hk : a.toNat ≤ 2088960) :
    (estimate a).toInt = 102400 - ((2088960 : Int) - a.toNat) / 10 := by
  rw [estimate_toInt (by omega), Int.tdiv_neg, Int.tdiv_eq_ediv_of_nonneg (by omega), neg_add_eq_sub]

theorem estimate_toInt_neg_iff {a : Word} (h : a.toNat ≤ 4190208) :
    (estimate a).toInt < 0 ↔ a.toNat ≤ 1064950 := by
  obtain hk | hk := le_total a.toNat 2088960
  · rw [estimate_toInt_of_le hk]
    omega
  · rw [estimate_toInt_of_ge h hk]
    omega

/-- The integer part is rounded down, so it has the sign of the word. -/
theorem fxInt_neg_iff (w : Word) : fxInt w < 0 ↔ w.toInt < 0 := by
  unfold fxInt asr12
  omega

theorem estimate_toInt_eq_zero {a : Word} (hlo : 1064951 ≤ a.toNat) (hhi : a.toNat ≤ 1064960) :
    (estimate a).toInt = 0 := by
  rw [estimate_toInt_of_le (by omega)]
  omega

theorem estimate_toInt_bounds {a : Word} (h : a.toNat ≤ 4190208) :
    -106496 ≤ (estimate a).toInt ∧ (estimate a).toInt ≤ 312524 := by
  simpa [tempInRange] using estimate_inRange h

/-- Settles O19: range and sign come from the formula in range, the landmarks are its values, and the last clause is
`estimate_eq`. -/
theorem estimateRangeSignAndLandmarks : Obligations.EstimateRangeSignAndLandmarks := by
  refine ⟨fun a h => ?range, by decide, by decide, by decide, by decide, by decide, by decide, estimate_eq⟩
  case range =>
    obtain ⟨hlo, hhi⟩ := estimate_toInt_bounds h
    exact ⟨hlo, hhi, estimate_toInt_neg_iff h, (fxInt_neg_iff _).trans (estimate_toInt_neg_iff h),
      estimate_toInt_eq_zero⟩

/-- The quotient is 0 for fewer than 10 words to either side of `fx(510)` (R101). -/
theorem estimate_eq_tRef_iff {a : Word} (h : a.toNat ≤ 4190208) :
    estimate a = 102400#32 ↔ 2088951 ≤ a.toNat ∧ a.toNat ≤ 2088969 := by
  have hval : (102400#32).toInt = 102400 := by decide
  rw [← BitVec.toInt_inj, hval]
  obtain hk | hk := le_total a.toNat 2088960
  · rw [estimate_toInt_of_le hk]
    omega
  · rw [estimate_toInt_of_ge h hk]
    omega

/-- Settles O17: `ESTIM` is legal exactly in Running, its effect is one write of `TEMP`, and the words that give 25 are
those of `estimate_eq_tRef_iff`. -/
theorem estimWritesTheTemperature : Obligations.EstimWritesTheTemperature := by
  refine ⟨by decide, fun s => ⟨fun hrun => ?running, fun hrun => ?refused⟩, by decide, by decide, by decide,
    fun _ => estimate_eq_tRef_iff⟩
  case running => exact exec_of_legal (i := .estim) hrun
  case refused => exact exec_of_illegal (i := .estim) hrun

end Sys2Proof.Machine

namespace Sys2Proof

/-- The fields of a command word do not overlap, so their disjunction is their sum (30_encoding.md R71). -/
theorem assemble_toNat (op : BitVec 4) (ch : BitVec 1) (imm : BitVec 10) :
    (assemble op ch imm).toNat = op.toNat <<< 12 + (ch.toNat <<< 11 + imm.toNat) := by
  have hop : op.toNat < 16 := op.isLt
  have hch : ch.toNat < 2 := ch.isLt
  have himm : imm.toNat < 1024 := imm.isLt
  have hlow : ch.toNat <<< 11 + imm.toNat = ch.toNat <<< 11 ||| imm.toNat :=
    Nat.shiftLeft_add_eq_or_of_lt (by omega) _
  have hall : op.toNat <<< 12 + (ch.toNat <<< 11 + imm.toNat) = op.toNat <<< 12 ||| (ch.toNat <<< 11 + imm.toNat) :=
    Nat.shiftLeft_add_eq_or_of_lt (by omega) _
  have hop32 : (op.setWidth 32 <<< 12).toNat = op.toNat <<< 12 := by
    simp [BitVec.toNat_shiftLeft]
    omega
  have hch32 : (ch.setWidth 32 <<< 11).toNat = ch.toNat <<< 11 := by
    simp [BitVec.toNat_shiftLeft]
    omega
  rw [hall, hlow, ← Nat.lor_assoc, assemble, BitVec.toNat_or, BitVec.toNat_or, hop32, hch32,
    BitVec.toNat_setWidth_of_le (by decide)]

/-- The word of `SMOOTH #raw` (R111). -/
theorem encode_smooth (raw : RawSample) : encode (.smooth raw) = BitVec.ofNat 32 (0x3000 + raw.toNat) := by
  have hraw : raw.toNat < 1024 := raw.isLt
  have hword : (BitVec.ofNat 32 (0x3000 + raw.toNat)).toNat = 0x3000 + raw.toNat := Nat.mod_eq_of_lt (by omega)
  refine BitVec.eq_of_toNat_eq ?_
  rw [encode, assemble_toNat, hword]
  simp

end Sys2Proof

namespace Sys2Proof.Machine

/-! ### The exponential smoother (42_exponential_smoother.md) -/

theorem asr12_eq_shift (x : Int) : asr12 x = x >>> (12 : Nat) := by simp [asr12, Int.shiftRight_eq_div_pow]

/-- The second product is a whole multiple of 4096, so the exact sum loses what the first product alone loses (R112). -/
theorem asr12_add_mul (x y : Int) : asr12 (x + y * 4096 * alphaRaw) = asr12 x + y * alphaRaw := by
  rw [mul_right_comm]
  exact Int.add_mul_ediv_right _ _ (by decide)

/-- Settles O14: the definition with its shift written as such, and `asr12_add_mul` for the rounding of the sum. -/
theorem smoothIsTheConvexCombinationRoundedDown : Obligations.SmoothIsTheConvexCombinationRoundedDown := by
  intro a r
  constructor
  · rw [smooth, asr12_eq_shift]
    rfl
  · rw [smooth, ← asr12_add_mul, asr12_eq_shift]
    rfl

/-- The weights 3277 and 819 have the sum 4096 (R113), and both inputs bound the mean rounded down. -/
theorem smooth_between {a : Word} (h : a.toNat ≤ 4190208) (r : RawSample) :
    min a.toNat (r.toNat * 4096) ≤ (smooth a r).toNat ∧ (smooth a r).toNat ≤ max a.toNat (r.toNat * 4096) := by
  rw [smooth_toNat h]
  omega

@[simp] theorem tickEffect_avg (s : State) : (tickEffect s).avg = smooth s.avg s.rawIn :=
  tickEffect_field State.avg (fun c t u => by simp [tickChannel]) s

/-- Every command keeps the range of `AVG`: those that write it (`effectOf_avg`) write `fx(512)` or a smoothed value. -/
theorem effectOf_avg_le (i : Instr) {s : State} (h : s.avg.toNat ≤ 4190208) :
    (effectOf i s).avg.toNat ≤ 4190208 := by
  obtain hsame | rfl | ⟨raw, rfl⟩ | rfl := effectOf_avg i s
  · exact hsame ▸ h
  · rw [effectOf, initEffect_avg]
    decide
  · exact smooth_toNat_le h raw
  · rw [effectOf, tickEffect_avg]
    exact smooth_toNat_le h s.rawIn

theorem step_avg_le {s t : State} (h : s.avg.toNat ≤ 4190208) (hs : step s = .next t) : t.avg.toNat ≤ 4190208 := by
  have hreset : (0x00200000#32).toNat ≤ 4190208 := by decide
  refine step_keeps (P := fun u => u.avg.toNat ≤ 4190208) hs h ?accept ?present ?drawn ?returned ?reset ?abandon
    ?illcmd ?effect
  case accept => exact fun _ _ hu => hu
  case present => exact fun _ _ hu => hu
  case drawn => exact fun _ hu => hu
  case returned => exact fun _ _ _ hu => hu
  case reset => exact fun _ _ => hreset
  case abandon => exact fun _ _ _ _ => hreset
  case illcmd => exact fun _ hu => hu
  case effect => exact fun i _ hu _ => effectOf_avg_le i hu

/-- Settles O15: `smooth_toNat` has no wrap in range, `smooth_between` puts it between the inputs, `step_avg_le` is the
step. -/
theorem smoothingKeepsTheAverageInRange : Obligations.SmoothingKeepsTheAverageInRange := by
  refine ⟨fun a r h => ?_, fun _ _ => step_avg_le⟩
  obtain ⟨hlo, hhi⟩ := smooth_between h r
  exact ⟨smooth_toNat h r, smooth_toNat_le h r, hlo, hhi⟩

/-! #### The error under a constant input (R114) -/

/-- The error after one step: `floor(e * 3277 / 4096)`. -/
def errorStep (e : Int) : Int := e * 3277 / 4096

theorem smooth_error {a : Word} (h : a.toNat ≤ 4190208) (r : RawSample) :
    ((smooth a r).toNat : Int) - r.toNat * 4096 = errorStep ((a.toNat : Int) - r.toNat * 4096) := by
  rw [smooth_toNat h, errorStep]
  omega

theorem errorStep_of_pos {e : Int} (h : 0 < e) : 0 ≤ errorStep e ∧ errorStep e < e := by
  unfold errorStep
  omega

theorem errorStep_of_le_neg_six {e : Int} (h : e ≤ -6) : e < errorStep e ∧ errorStep e ≤ -5 := by
  unfold errorStep
  omega

theorem errorStep_le_neg_five {e : Int} (h : e ≤ -5) : errorStep e ≤ -5 := by
  unfold errorStep
  omega

/-- The quantization floor: from -5 to 0 the error stays as it is. -/
theorem errorStep_fixed {e : Int} (hlo : -5 ≤ e) (hhi : e ≤ 0) : errorStep e = e := by
  unfold errorStep
  omega

theorem errorStep_neg {e : Int} : -(errorStep e) = (-e * 3277 + 4095) / 4096 := by
  unfold errorStep
  omega

/-- From above the error is 0 after at most `e` steps. -/
theorem errorStep_iterate_above (n : Nat) {e : Int} (h : 0 ≤ e) :
    0 ≤ errorStep^[n] e ∧ errorStep^[n] e ≤ max 0 (e - n) := by
  induction n with
  | zero => simp [h]
  | succ n ih =>
    obtain ⟨hlo, hhi⟩ := ih
    rw [Function.iterate_succ_apply']
    obtain hpos | hzero := hlo.lt_or_eq
    · have := errorStep_of_pos hpos
      omega
    · rw [← hzero, errorStep_fixed (by decide) le_rfl]
      omega

/-- From below the error comes within 5 of 0 and stays there. -/
theorem errorStep_iterate_below (n : Nat) {e : Int} (h : e ≤ 0) :
    min (-5) (e + n) ≤ errorStep^[n] e ∧ errorStep^[n] e ≤ 0 := by
  induction n with
  | zero => simp [h]
  | succ n ih =>
    obtain ⟨hlo, hhi⟩ := ih
    rw [Function.iterate_succ_apply']
    obtain hfar | hnear := le_or_gt (errorStep^[n] e) (-6)
    · have := errorStep_of_le_neg_six hfar
      omega
    · have := errorStep_fixed (e := errorStep^[n] e) (by omega) hhi
      omega

/-- An error of at most -5 never comes closer than that. -/
theorem errorStep_iterate_le_neg_five (n : Nat) {e : Int} (h : e ≤ -5) : errorStep^[n] e ≤ -5 :=
  Function.Iterate.rec (· ≤ -5) h (fun _ => errorStep_le_neg_five) n

/-- The average after `n` steps stays in range, and its error is the iterated one. -/
theorem smooth_iterate {a : Word} (h : a.toNat ≤ 4190208) (r : RawSample) (n : Nat) :
    ((fun x => smooth x r)^[n] a).toNat ≤ 4190208 ∧
    (((fun x => smooth x r)^[n] a).toNat : Int) - r.toNat * 4096 =
      errorStep^[n] ((a.toNat : Int) - r.toNat * 4096) := by
  induction n with
  | zero => exact ⟨h, rfl⟩
  | succ n ih =>
    obtain ⟨hle, herror⟩ := ih
    rw [Function.iterate_succ_apply', Function.iterate_succ_apply', ← herror]
    exact ⟨smooth_toNat_le hle r, smooth_error hle r⟩

theorem smooth_fixed (r : RawSample) :
    smooth (BitVec.ofNat 32 (r.toNat * 4096)) r = BitVec.ofNat 32 (r.toNat * 4096) := by
  have hr : r.toNat < 1024 := r.isLt
  have hval : (BitVec.ofNat 32 (r.toNat * 4096)).toNat = r.toNat * 4096 := Nat.mod_eq_of_lt (by omega)
  refine BitVec.eq_of_toNat_eq ?_
  rw [smooth_toNat (by omega), hval]
  omega

theorem smooth_iterate_reaches {a : Word} {r : RawSample} (h : a.toNat ≤ 4190208)
    (habove : r.toNat * 4096 ≤ a.toNat) :
    ∃ n, ((fun x => smooth x r)^[n] a).toNat = r.toNat * 4096 := by
  refine ⟨a.toNat, ?_⟩
  obtain ⟨_, herror⟩ := smooth_iterate h r a.toNat
  have := errorStep_iterate_above a.toNat (e := (a.toNat : Int) - r.toNat * 4096) (by omega)
  omega

theorem smooth_iterate_settles {a : Word} {r : RawSample} (hbelow : a.toNat < r.toNat * 4096) :
    ∃ n, ∀ m, n ≤ m → r.toNat * 4096 ≤ ((fun x => smooth x r)^[m] a).toNat + 5 ∧
      ((fun x => smooth x r)^[m] a).toNat ≤ r.toNat * 4096 := by
  have hr : r.toNat < 1024 := r.isLt
  refine ⟨r.toNat * 4096, fun m hm => ?_⟩
  obtain ⟨_, herror⟩ := smooth_iterate (a := a) (by omega) r m
  have := errorStep_iterate_below m (e := (a.toNat : Int) - r.toNat * 4096) (by omega)
  omega

theorem smooth_iterate_limit {a : Word} {r : RawSample} (hbelow : a.toNat + 5 ≤ r.toNat * 4096) :
    ∃ n, ((fun x => smooth x r)^[n] a).toNat + 5 = r.toNat * 4096 := by
  have hr : r.toNat < 1024 := r.isLt
  refine ⟨r.toNat * 4096, ?_⟩
  obtain ⟨_, herror⟩ := smooth_iterate (a := a) (by omega) r (r.toNat * 4096)
  have hlo := errorStep_iterate_below (r.toNat * 4096) (e := (a.toNat : Int) - r.toNat * 4096) (by omega)
  have hhi := errorStep_iterate_le_neg_five (r.toNat * 4096) (e := (a.toNat : Int) - r.toNat * 4096) (by omega)
  omega

/-- The number of R114 after 50 steps from `fx(512)` toward 1023. -/
theorem smooth_iterate_fifty : ((fun x => smooth x 1023#10)^[50] 0x00200000#32).toNat = 4190175 := by
  have hmid : ((0x00200000#32).toNat : Int) - (1023#10).toNat * 4096 = -2093056 := by decide
  have hfifty : errorStep^[50] (-2093056) = -33 := by simp [errorStep]
  have hinput : (1023#10).toNat = 1023 := rfl
  obtain ⟨_, herror⟩ := smooth_iterate (a := 0x00200000#32) (by decide) 1023#10 50
  rw [hmid, hfifty, hinput] at herror
  omega

/-- Settles O16: the clauses about one step are those of `errorStep`; the others read its iterates through
`smooth_iterate`. -/
theorem smoothingConvergesToTheQuantizationFloor : Obligations.SmoothingConvergesToTheQuantizationFloor := by
  refine ⟨fun a r h => smooth_error h r, fun e => errorStep_of_pos, fun e => errorStep_of_le_neg_six,
    fun e => errorStep_fixed, fun e _ => errorStep_neg, smooth_fixed, fun a r => smooth_iterate_reaches,
    fun a r => smooth_iterate_settles, smooth_iterate_fifty, ?limit, by decide⟩
  case limit =>
    obtain ⟨n, hn⟩ := smooth_iterate_limit (a := 0x00200000#32) (r := 1023#10) (by decide)
    exact ⟨n, BitVec.eq_of_toNat_eq (Nat.add_right_cancel hn)⟩

/-- Settles O13: the word is the encoding of the command (`encode_smooth`), the command is legal exactly in Running, and
the corner cases are values of `smooth`. -/
theorem smoothWritesTheNewAverage : Obligations.SmoothWritesTheNewAverage := by
  refine fun raw s => ⟨?word, fun hrun => ?running, fun hrun => ?refused, by decide⟩
  case word => exact encode_smooth raw ▸ decodeOfEncodeIsTheCommand (.smooth raw)
  case running => exact exec_of_legal (i := .smooth raw) hrun
  case refused => exact exec_of_illegal (i := .smooth raw) hrun

end Sys2Proof.Machine

namespace Sys2Proof.Machine

/-! ### The prescaler walk (43_prescaler_selector.md R122) -/

@[simp] theorem walkIndex_singleton (p approx : Nat) : walkIndex [p] approx = 0 := by
  by_cases h : approx < p <;> simp [walkIndex, List.findIdx?_cons, h]

@[simp] theorem walkIndex_cons_cons (p q : Nat) (rest : List Nat) (approx : Nat) :
    walkIndex (p :: q :: rest) approx = if approx < p then 0 else walkIndex (q :: rest) approx + 1 := by
  unfold walkIndex
  rw [List.findIdx?_cons]
  by_cases h : approx < p
  · simp [h]
  · cases (q :: rest).findIdx? (fun p => decide (approx < p)) <;> simp [h]

theorem walkIndex_lt_length {set : List Nat} (hne : set ≠ []) (approx : Nat) :
    walkIndex set approx < set.length := by
  unfold walkIndex
  cases hfind : set.findIdx? (fun p => decide (approx < p)) with
  | none => exact Nat.sub_lt (List.length_pos_iff.2 hne) Nat.one_pos
  | some j => exact (List.findIdx?_eq_some_iff_findIdx_eq.1 hfind).1

/-- The walk passes a member only when it does not exceed `approx`. -/
theorem le_of_lt_walkIndex {set : List Nat} {approx j p : Nat} (hj : j < walkIndex set approx)
    (hp : set[j]? = some p) : p ≤ approx := by
  unfold walkIndex at hj
  obtain ⟨hlen, rfl⟩ := List.getElem?_eq_some_iff.1 hp
  cases hfind : set.findIdx? (fun p => decide (approx < p)) with
  | none => simpa using List.findIdx?_eq_none_iff.1 hfind _ (List.getElem_mem hlen)
  | some k =>
    rw [hfind] at hj
    obtain ⟨_, _, hbefore⟩ := List.findIdx?_eq_some_iff_getElem.1 hfind
    simpa using hbefore j hj

/-- Where some member exceeds `approx`, the walk stops at one that does. -/
theorem lt_of_walkIndex {set : List Nat} {approx p d : Nat} (hmem : p ∈ set) (hp : approx < p)
    (hd : set[walkIndex set approx]? = some d) : approx < d := by
  unfold walkIndex at hd
  cases hfind : set.findIdx? (fun p => decide (approx < p)) with
  | none =>
    have hnone := List.findIdx?_eq_none_iff.1 hfind p hmem
    exact absurd hp (by simpa using hnone)
  | some k =>
    rw [hfind] at hd
    obtain ⟨_, hstop, _⟩ := List.findIdx?_eq_some_iff_getElem.1 hfind
    obtain ⟨_, rfl⟩ := List.getElem?_eq_some_iff.1 hd
    simpa using hstop

/-- The fallback: where no member exceeds `approx`, the walk ends at the last index. -/
theorem walkIndex_fallback {set : List Nat} {approx : Nat} (hall : ∀ p ∈ set, p ≤ approx) :
    walkIndex set approx = set.length - 1 := by
  have hnone : set.findIdx? (fun p => decide (approx < p)) = none :=
    List.findIdx?_eq_none_iff.2 fun p hp => decide_eq_false (Nat.not_lt.2 (hall p hp))
  rw [walkIndex, hnone, Option.getD_none]

/-! ### The two prescaler sets (00_scope.md R8) -/

theorem prescalers_ne_nil (f : Family) : prescalers f ≠ [] := by cases f <;> decide

theorem prescalers_length_le (f : Family) : (prescalers f).length ≤ 7 := by cases f <;> decide

theorem mem_prescalers_le {f : Family} {p : Nat} (h : p ∈ prescalers f) : p ≤ 1024 := by
  have hall : ∀ f, ∀ p ∈ prescalers f, p ≤ 1024 := by rintro (_ | _) <;> decide
  exact hall f p h

theorem mem_prescalers_1024 (f : Family) : 1024 ∈ prescalers f := by cases f <;> decide

theorem prescalers_last (f : Family) : (prescalers f)[(prescalers f).length - 1]? = some 1024 := by cases f <;> rfl

/-- The table of R122 for `FAMILY_A`. -/
theorem walkIndex_familyA (approx : Nat) : walkIndex (prescalers .familyA) approx =
    if approx < 1 then 0 else if approx < 8 then 1 else if approx < 64 then 2 else if approx < 256 then 3 else 4 := by
  simp only [prescalers, walkIndex_cons_cons, walkIndex_singleton]
  split_ifs <;> rfl

/-- The table of R122 for `FAMILY_B`. -/
theorem walkIndex_familyB (approx : Nat) : walkIndex (prescalers .familyB) approx =
    if approx < 1 then 0 else if approx < 8 then 1 else if approx < 32 then 2 else if approx < 64 then 3
      else if approx < 128 then 4 else if approx < 256 then 5 else 6 := by
  simp only [prescalers, walkIndex_cons_cons, walkIndex_singleton]
  split_ifs <;> rfl

/-! ### The prescaler that `select` takes (R121, R122) -/

section
variable (cpuHz targetHz : Word) (f : Family)

theorem rangeQuotient_lt : rangeQuotient cpuHz targetHz < 2 ^ 32 :=
  Nat.lt_of_le_of_lt (Nat.div_le_self _ _) cpuHz.isLt

theorem select_pidx :
    (select cpuHz targetHz f).pidx = walkIndex (prescalers f) (approxRange cpuHz targetHz) := rfl

theorem select_div :
    (select cpuHz targetHz f).div = (prescalers f)[(select cpuHz targetHz f).pidx]?.getD 1 := rfl

theorem select_topFull : (select cpuHz targetHz f).topFull =
    rangeQuotient cpuHz targetHz / (select cpuHz targetHz f).div / 2 := rfl

theorem select_pidx_lt : (select cpuHz targetHz f).pidx < (prescalers f).length :=
  walkIndex_lt_length (prescalers_ne_nil f) _

theorem getElem?_select_pidx :
    (prescalers f)[(select cpuHz targetHz f).pidx]? = some (select cpuHz targetHz f).div := by
  rw [select_div, List.getElem?_eq_getElem (select_pidx_lt cpuHz targetHz f), Option.getD_some]

theorem select_div_le : (select cpuHz targetHz f).div ≤ 1024 :=
  mem_prescalers_le (List.mem_of_getElem? (getElem?_select_pidx cpuHz targetHz f))

variable {cpuHz targetHz}

theorem approxRange_lt_select_div (h : approxRange cpuHz targetHz < 1024) :
    approxRange cpuHz targetHz < (select cpuHz targetHz f).div :=
  lt_of_walkIndex (mem_prescalers_1024 f) h (getElem?_select_pidx cpuHz targetHz f)

theorem select_pidx_fallback (h : 1024 ≤ approxRange cpuHz targetHz) :
    (select cpuHz targetHz f).pidx = (prescalers f).length - 1 :=
  walkIndex_fallback fun _ hp => Nat.le_trans (mem_prescalers_le hp) h

theorem select_div_fallback (h : 1024 ≤ approxRange cpuHz targetHz) : (select cpuHz targetHz f).div = 1024 := by
  rw [select_div, select_pidx_fallback f h, prescalers_last, Option.getD_some]

/-! ### TOP (R124, R125) -/

/-- Without the fallback `q0 < 510 * DIV`, so half of `q0 / DIV` is at most 254. -/
theorem select_topFull_le (h : approxRange cpuHz targetHz < 1024) : (select cpuHz targetHz f).topFull ≤ 254 := by
  have hrange : rangeQuotient cpuHz targetHz < (select cpuHz targetHz f).div * 510 :=
    (Nat.div_lt_iff_lt_mul (by decide)).1 (approxRange_lt_select_div f h)
  have hticks : rangeQuotient cpuHz targetHz / (select cpuHz targetHz f).div < 510 := Nat.div_lt_of_lt_mul hrange
  rw [select_topFull]
  omega

theorem select_topFull_fallback (h : 1024 ≤ approxRange cpuHz targetHz) :
    (select cpuHz targetHz f).topFull = rangeQuotient cpuHz targetHz / 1024 / 2 := by
  rw [select_topFull, select_div_fallback f h]

end

/-- Settles O26: the tables are those of `walkIndex_familyA` and `walkIndex_familyB`, and the clauses about the walk are
its lemmas at the two sets. -/
theorem selectPicksTheFirstExceedingPrescaler : Obligations.SelectPicksTheFirstExceedingPrescaler := by
  refine ⟨rfl, rfl, ?table, ?walk⟩
  case table =>
    intro cpuHz targetHz approx happrox
    obtain rfl : approx = approxRange cpuHz targetHz := happrox
    constructor
    · rw [select_div, select_pidx, walkIndex_familyA]
      split_ifs <;> rfl
    · rw [select_div, select_pidx, walkIndex_familyB]
      split_ifs <;> rfl
  case walk =>
    intro cpuHz targetHz f approx happrox
    obtain rfl : approx = approxRange cpuHz targetHz := happrox
    refine ⟨getElem?_select_pidx cpuHz targetHz f, fun j p => le_of_lt_walkIndex, approxRange_lt_select_div f,
      fun h => ⟨select_div_fallback f h, ?_⟩⟩
    have := select_pidx_lt cpuHz targetHz f
    have := select_pidx_fallback f h
    omega

/-- Settles O27: quotients of quotients are quotients by the product, and the fields of `TPRESC` are wide enough since
`DIV ≤ 1024` and the sets hold at most seven members. -/
theorem selectComputesRangeAndTop : Obligations.SelectComputesRangeAndTop := by
  intro cpuHz targetHz f
  have hq0 := rangeQuotient_lt cpuHz targetHz
  refine ⟨rfl, rfl, Nat.div_div_eq_div_mul _ _ _, hq0, ?approx, rfl, ?grouping, BitVec.toNat_ofNat .., ?div, ?pidx⟩
  case approx => exact (Nat.div_lt_iff_lt_mul (by decide)).2 (by unfold pwmDivisor; omega)
  case grouping => rw [select_topFull, rangeQuotient, Nat.div_div_eq_div_mul, Nat.div_div_eq_div_mul, Nat.mul_assoc]
  case div =>
    have := select_div_le cpuHz targetHz f
    exact Nat.mod_eq_of_lt (by omega)
  case pidx =>
    have := select_pidx_lt cpuHz targetHz f
    have := prescalers_length_le f
    exact Nat.mod_eq_of_lt (by omega)

/-- Settles O28: without the fallback TOP is at most 254 (`select_topFull_le`); with it `DIV` is 1024. -/
theorem selectOverflowsExactlyFromTheBound : Obligations.SelectOverflowsExactlyFromTheBound := by
  intro cpuHz targetHz f q0 hq0
  obtain rfl : q0 = rangeQuotient cpuHz targetHz := hq0
  have happrox : approxRange cpuHz targetHz = rangeQuotient cpuHz targetHz / 510 := rfl
  rcases Nat.lt_or_ge (approxRange cpuHz targetHz) 1024 with hfound | hfallback
  · have htop := select_topFull_le f hfound
    exact ⟨fun _ => ⟨htop, Nat.mod_eq_of_lt (by omega)⟩, by omega, by omega, by omega⟩
  · have htop := select_topFull_fallback f hfallback
    exact ⟨by omega, by omega, by omega, by omega⟩

end Sys2Proof.Machine

namespace Sys2Proof

/-- The word of `SETDUTY ch, #pct` (R138). -/
theorem encode_setduty (c : Ch) (pct : Percent) :
    encode (.setduty c pct) = BitVec.ofNat 32 (0x6000 + 0x800 * (chBit c).toNat + pct.toNat) := by
  have hpct : pct.toNat < 128 := pct.isLt
  have hch : (chBit c).toNat < 2 := (chBit c).isLt
  refine BitVec.eq_of_toNat_eq ?_
  rw [encode, assemble_toNat, BitVec.toNat_setWidth_of_le (by decide), BitVec.toNat_ofNat, Nat.shiftLeft_eq,
    Nat.shiftLeft_eq, BitVec.toNat_ofNat]
  omega

end Sys2Proof

namespace Sys2Proof.Machine

/-! ### The compare value of a percentage (44_pwm_channel.md R137) -/

theorem top_mul_pct_le (top : BitVec 8) {pct : Percent} (h : pct.toNat ≤ 100) : top.toNat * pct.toNat ≤ 25500 :=
  Nat.mul_le_mul (Nat.le_of_lt_succ top.isLt) h

/-- Up to 100 percent the hundredth fits the 8-bit compare register. -/
theorem dutyTicks_toNat (top : BitVec 8) {pct : Percent} (h : pct.toNat ≤ 100) :
    (dutyTicks top pct).toNat = top.toNat * pct.toNat / 100 := by
  have hprod := top_mul_pct_le top h
  exact Nat.mod_eq_of_lt (by omega)

theorem dutyTicks_mono {top top' : BitVec 8} {pct pct' : Percent} (htop : top.toNat ≤ top'.toNat)
    (hpct : pct.toNat ≤ pct'.toNat) (h : pct'.toNat ≤ 100) :
    (dutyTicks top pct).toNat ≤ (dutyTicks top' pct').toNat := by
  rw [dutyTicks_toNat top (hpct.trans h), dutyTicks_toNat top' h]
  exact Nat.div_le_div_right (Nat.mul_le_mul htop hpct)

theorem dutyTicks_zero_pct (top : BitVec 8) : dutyTicks top 0#7 = 0#8 := by simp [dutyTicks]

theorem dutyTicks_zero_top (pct : Percent) : dutyTicks 0#8 pct = 0#8 := by simp [dutyTicks]

theorem dutyTicks_full (top : BitVec 8) : dutyTicks top 100#7 = top := by simp [dutyTicks]

/-- Settles O30: the product bound keeps the quotient within 8 bits (`dutyTicks_toNat`), and with it the scaling is
monotone in both arguments (`dutyTicks_mono`). -/
theorem dutyTicksScalesThePercentage : Obligations.DutyTicksScalesThePercentage :=
  ⟨by decide, by decide, by decide, fun top pct h =>
    ⟨top_mul_pct_le top h, dutyTicks_toNat top h, dutyTicks_le h top, dutyTicks_zero_pct top, dutyTicks_full top,
      dutyTicks_zero_top pct, fun _ hpct h' => dutyTicks_mono le_rfl hpct h',
      fun _ htop => dutyTicks_mono htop le_rfl h⟩⟩

/-! ### What a channel operation leaves alone (44_pwm_channel.md R140) -/

/-- From `s` to `t` only channel `c` was touched: the other channel, what both share and the other timer port are as
they were. The flags `ILLCMD` and `PCTERR`, by which a command is refused, are not spoken of. -/
structure TouchesOnly (c : Ch) (s t : State) : Prop where
  chan : ∀ k, k ≠ c → t.chan k = s.chan k
  topovf : ∀ k, k ≠ c → t.status.topovf k = s.status.topovf k
  avg : t.avg = s.avg
  temp : t.temp = s.temp
  run : t.status.run = s.status.run
  events : ∃ new, t.events = s.events ++ new ∧ ∀ e ∈ new, e.ch = c

@[simp] theorem topovf_update_illcmd (t : Status) (b : Bool) (c : Ch) :
    Status.topovf { t with illcmd := b } c = t.topovf c := by cases c <;> rfl

namespace TouchesOnly

theorem configure (c : Ch) (s : State) : TouchesOnly c s (configure c s) where
  chan k hk := configure_chan_other c k s hk
  topovf k hk := by rw [configure_status, noteTopovf_topovf_other _ _ _ _ hk]
  avg := configure_avg c s
  temp := configure_temp c s
  run := by rw [configure_status, noteTopovf_run]
  events := ⟨_, configure_events c s, by simp⟩

theorem setDuty (c : Ch) (pct : Percent) (s : State) : TouchesOnly c s (setDuty c pct s) where
  chan k hk := setDuty_chan_other c k pct s hk
  topovf k _ := by rw [setDuty_status]
  avg := setDuty_avg c pct s
  temp := setDuty_temp c pct s
  run := by rw [setDuty_status]
  events := ⟨_, setDuty_events c pct s, by simp⟩

theorem flagIllcmd (c : Ch) (s : State) : TouchesOnly c s s.flagIllcmd where
  chan k _ := flagIllcmd_chan s k
  topovf k _ := topovf_update_illcmd s.status true k
  avg := rfl
  temp := rfl
  run := rfl
  events := ⟨[], (List.append_nil _).symm, by simp⟩

theorem flagPcterr (c : Ch) (s : State) : TouchesOnly c s s.flagPcterr where
  chan k _ := flagPcterr_chan s k
  topovf k _ := topovf_update_pcterr s.status true k
  avg := rfl
  temp := rfl
  run := rfl
  events := ⟨[], (List.append_nil _).symm, by simp⟩

theorem setdutyEffect (c : Ch) (pct : Percent) (s : State) : TouchesOnly c s (setdutyEffect c pct s) := by
  obtain h | h := setdutyEffect_cases c pct s <;> rw [h]
  · exact setDuty c pct s
  · exact flagPcterr c s

/-- A command touches only channel `c` if its effect does: refusing it sets a flag. -/
theorem of_exec {c : Ch} {i : Instr} {s t : State} (h : exec i s = .next t) (heffect : TouchesOnly c s (effectOf i s)) :
    TouchesOnly c s t := by
  obtain ⟨_, rfl⟩ | ⟨_, rfl⟩ := exec_cases h
  · exact heffect
  · exact flagIllcmd c s

end TouchesOnly

/-- Settles O44: each of the four ways to `t` touches only channel `c`. -/
theorem channelCommandsTouchOnlyTheirChannel : Obligations.ChannelCommandsTouchOnlyTheirChannel := by
  intro s t c other pct hother hreach
  have htouch : TouchesOnly c s t := by
    obtain h | h | rfl | rfl := hreach
    · exact .of_exec h (.configure c s)
    · exact .of_exec h (.setdutyEffect c pct s)
    · exact .configure c s
    · exact .setDuty c pct s
  exact ⟨htouch.chan other hother, htouch.topovf other hother, htouch.avg, htouch.temp, htouch.run, htouch.events⟩

/-! ### `CONFIG` (44_pwm_channel.md R136) -/

/-- `TPRESC` is its two numbers (R123). -/
theorem presc_eq_of_toNat_eq {x : Selection} {presc : Presc} (hpidx : presc.pidx.toNat = x.pidx)
    (hdiv : presc.div.toNat = x.div) : x.presc = presc := by
  simp [Selection.presc, ← hpidx, ← hdiv]

/-- The whole effect of `configure`. -/
theorem configure_eq (c : Ch) (s : State) : configure c s =
    ({ s with
        status := s.status.noteTopovf c (channelSelection s.params c).overflow,
        events := s.events ++ [⟨c, .mode 1#1⟩, ⟨c, .presc (channelSelection s.params c).presc⟩,
          ⟨c, .top (channelSelection s.params c).top⟩] } : State).setChan c
      { s.chan c with
        tmode := 1#1, tpresc := .value (channelSelection s.params c).presc,
        ttop := .value (channelSelection s.params c).top } := by
  refine state_ext ?avg ?temp ?status ?chan ?params ?raw ?pending ?events ?reads ?draws
  case chan =>
    intro k
    by_cases hk : k = c
    · subst hk
      rw [configure_chan_self, setChan_chan_self]
    · rw [configure_chan_other c k s hk, setChan_chan_other c k _ _ hk]
      cases k <;> rfl
  case avg | temp | status | params | raw | pending | events | reads | draws => simp

/-- Settles O29: `CONFIG` is legal exactly before Running for an active channel, and `configure_eq` is its effect. -/
theorem configProgramsTheChannel : Obligations.ConfigProgramsTheChannel := by
  refine ⟨by decide, by decide, fun s c x presc hx hpidx hdiv => ⟨fun hr ha => ?legal, fun hrefuse => ?refused⟩⟩
  case legal =>
    have hsel : channelSelection s.params c = x := by
      rw [hx]
      cases c <;> rfl
    rw [exec_of_legal (by simp [State.legal, hr, ha]), effectOf, configure_eq, hsel, presc_eq_of_toNat_eq hpidx hdiv]
    rfl
  case refused =>
    exact exec_of_illegal (by simpa only [State.legal, Bool.and_eq_false_iff, Bool.not_eq_false'] using hrefuse)

/-! ### `SETDUTY` (44_pwm_channel.md R138) -/

/-- Settles O31: the word is the encoding of the command, a legal `SETDUTY` up to 100 percent is one `setDuty` that
reads `TTOP[ch]`; above, it is legal but flags `PCTERR`, and one that is not legal flags `ILLCMD`. -/
theorem setdutyDrivesTheCompareValue : Obligations.SetdutyDrivesTheCompareValue := by
  refine fun s c pct => ⟨?word, fun v ticks hr ha htop hp hticks => ?legal, fun hr ha hp => ?excess,
    fun hrefuse => ?refused⟩
  case word =>
    rw [← decodeOfEncodeIsTheCommand (.setduty c pct), encode_setduty]
    cases c <;> rfl
  case legal =>
    obtain ⟨hread, hafter⟩ := topRead_of_value htop
    obtain rfl : ticks = dutyTicks v pct := hticks
    rw [exec_setduty hr ha hp, setDuty_eq, hread, hafter]
  case excess =>
    rw [exec_of_legal (by simp [State.legal, hr, ha]), effectOf, setdutyEffect_of_excess hp]
    rfl
  case refused => exact exec_of_illegal (by simpa only [State.legal, Bool.and_eq_false_iff] using hrefuse)

end Sys2Proof.Machine

namespace Sys2Proof.Machine

/-! ### `INIT` (45_control_loop.md R151) -/

theorem setChan_self (c : Ch) (s : State) : s.setChan c (s.chan c) = s := by cases c <;> rfl

theorem noteTopovf_false (t : Status) (c : Ch) : t.noteTopovf c false = t := by cases c <;> simp [Status.noteTopovf]

/-- One channel's part of `INIT`: the whole effect, of an active channel and of an inactive one. -/
theorem whenActive_configure_eq (c : Ch) (s : State) : whenActive c (configure c) s =
    ({ s with
        status := s.status.noteTopovf c (s.active c && (channelSelection s.params c).overflow),
        events := s.events ++ if s.active c then
          [⟨c, .mode 1#1⟩, ⟨c, .presc (channelSelection s.params c).presc⟩,
            ⟨c, .top (channelSelection s.params c).top⟩] else [] } : State).setChan c
      (if s.active c then { s.chan c with
        tmode := 1#1, tpresc := .value (channelSelection s.params c).presc,
        ttop := .value (channelSelection s.params c).top } else s.chan c) := by
  cases ha : s.active c with
  | true => exact (whenActive_of_active ha).trans (configure_eq c s)
  | false =>
    simp only [Bool.false_and, noteTopovf_false, Bool.false_eq_true, if_false, List.append_nil, setChan_self,
      whenActive_of_inactive ha]

/-- Settles O33: before Running `INIT` is channel 0's part (`whenActive_configure_eq`), then channel 1's on what that
leaves, then the smoother and `RUN`; in Running it is not legal. -/
theorem initConfiguresActiveChannelsAndRuns : Obligations.InitConfiguresActiveChannelsAndRuns := by
  refine ⟨by decide, fun s sel presc evs regs hsel0 hsel1 hpresc hevs hregs => ?_⟩
  obtain rfl : sel = channelSelection s.params := by
    funext c
    cases c
    · exact hsel0
    · exact hsel1
  obtain rfl : presc = fun c => (channelSelection s.params c).presc :=
    funext fun c => (presc_eq_of_toNat_eq (hpresc c).1 (hpresc c).2).symm
  refine ⟨fun hr => ?before, fun hr => ?running⟩
  case before =>
    rw [exec_of_legal (by simp [State.legal, hr]), effectOf, initEffect, whenActive_configure_eq,
      whenActive_configure_eq, hevs, hevs, hregs, hregs, ← fx_mid]
    rfl
  case running => exact exec_of_illegal (by simp [State.legal, hr])

/-! ### `TICK` (45_control_loop.md R152) -/

/-- The temperature a tick estimates: that of the new average. -/
def tickTemp (s : State) : Word := estimate (smooth s.avg s.rawIn)

/-- The state in which a tick comes to its channels: the new average and its temperature are written. -/
def State.sampled (s : State) : State := (s.writeAvg (smooth s.avg s.rawIn)).writeTemp (tickTemp s)

@[simp] theorem sampled_temp (s : State) : s.sampled.temp = .value (tickTemp s) := rfl
@[simp] theorem sampled_status (s : State) : s.sampled.status = s.status := rfl
@[simp] theorem sampled_active (s : State) (c : Ch) : s.sampled.active c = s.active c := rfl

theorem tickEffect_eq_channels (s : State) : tickEffect s =
    whenActive .ch1 (tickChannel .ch1 (fxInt (tickTemp s)))
      (whenActive .ch0 (tickChannel .ch0 (fxInt (tickTemp s))) s.sampled) := rfl

/-- In Running `TICK` is legal and has its effect. -/
theorem exec_tick {s : State} (hr : s.status.run = true) : exec .tick s = .next (tickEffect s) :=
  exec_of_legal (i := .tick) hr

/-- The duty a tick interpolates for channel `c`. -/
def tickDuty (s : State) (c : Ch) : Percent := interp (paramCurve s.params c) (fxInt (tickTemp s))

/-- The events of channel `c` in a tick that reads `top` from `TTOP[c]`. -/
def tickEvents (s : State) (top : BitVec 8) (c : Ch) : List TimerEvent :=
  if s.active c then [⟨c, .cmp (dutyTicks top (tickDuty s c))⟩] else []

/-- The registers of channel `c` after a tick that reads `top` from `TTOP[c]`. -/
def tickRegisters (s : State) (top : BitVec 8) (c : Ch) : Channel :=
  if s.active c then
    { s.chan c with duty := .value (tickDuty s c), tcmp := .value (dutyTicks top (tickDuty s c)) }
  else s.chan c

/-- One channel's part of a tick: the whole effect, of an active channel, whose TOP is `top`, and of an inactive one. -/
theorem whenActive_tickChannel_eq {c : Ch} {s : State} {top : BitVec 8} (t : Int)
    (htop : s.active c = true → (s.chan c).ttop = .value top) : whenActive c (tickChannel c t) s =
    ({ s with events := s.events ++ if s.active c then
        [⟨c, .cmp (dutyTicks top (interp (paramCurve s.params c) t))⟩] else [] } : State).setChan c
      (if s.active c then { s.chan c with
        duty := .value (interp (paramCurve s.params c) t),
        tcmp := .value (dutyTicks top (interp (paramCurve s.params c) t)) } else s.chan c) := by
  cases ha : s.active c with
  | true =>
    obtain ⟨hread, hafter⟩ := topRead_of_value (c := c)
      (s := s.writeDuty c (interp (paramCurve s.params c) t)) (by simpa using htop ha)
    rw [whenActive_of_active ha, tickChannel, setDuty_eq, hread, hafter]
    cases c <;> rfl
  | false =>
    simp only [Bool.false_eq_true, if_false, List.append_nil, setChan_self, whenActive_of_inactive ha]

/-- The whole effect of a tick, when `TTOP[c]` of each active channel holds `top c`. -/
theorem tickEffect_eq {s : State} {top : Ch → BitVec 8}
    (htop : ∀ c, s.active c = true → (s.chan c).ttop = .value (top c)) : tickEffect s = { s with
      avg := smooth s.avg s.rawIn, temp := .value (tickTemp s),
      ch0 := tickRegisters s (top .ch0) .ch0, ch1 := tickRegisters s (top .ch1) .ch1,
      events := s.events ++ tickEvents s (top .ch0) .ch0 ++ tickEvents s (top .ch1) .ch1 } := by
  rw [tickEffect_eq_channels, whenActive_tickChannel_eq (c := .ch0) (top := top .ch0) _ ?fan,
    whenActive_tickChannel_eq (c := .ch1) (top := top .ch1) _ ?pump]
  · rfl
  case fan => exact htop .ch0
  case pump => exact htop .ch1

/-- Settles O34: in Running `TICK` is `tickEffect_eq`, whose temperature's integer part is a shift (`fxInt_eq_shift`);
before Running it is not legal. -/
theorem tickRunsTheWholeLoop : Obligations.TickRunsTheWholeLoop := by
  refine ⟨by decide, ?_⟩
  rintro s top _ _ d ticks evs regs htop rfl rfl hd0 hd1 hticks hevs hregs
  rw [← fxInt_eq_shift] at hd0 hd1
  obtain rfl : d = tickDuty s := by
    funext c
    cases c
    · exact hd0
    · exact hd1
  obtain rfl : ticks = fun c => dutyTicks (top c) (tickDuty s c) := funext hticks
  obtain rfl : evs = fun c => tickEvents s (top c) c := funext hevs
  obtain rfl : regs = fun c => tickRegisters s (top c) c := funext hregs
  exact ⟨fun hr => (exec_tick hr).trans (congrArg _ (tickEffect_eq htop)), exec_of_illegal (i := .tick)⟩

/-! ### A tick and the unit commands (45_control_loop.md R154) -/

/-- In Running, with a temperature, `INTERP` and then `SETDUTY` of the duty it wrote are the channel's part of a tick:
the duty is a percentage, so `SETDUTY` sets it. -/
theorem exec_interp_setduty {s : State} {c : Ch} {w : Word} (hr : s.status.run = true) (ha : s.active c = true)
    (htemp : s.temp = .value w) :
    ∃ mid d, exec (.interp c) s = .next mid ∧ (mid.chan c).duty = .value d ∧
      exec (.setduty c d) mid = .next (tickChannel c (fxInt w) s) := by
  refine ⟨s.writeDuty c (interp (paramCurve s.params c) (fxInt w)), interp (paramCurve s.params c) (fxInt w),
    ?interp, by simp, ?setduty⟩
  case interp => rw [exec_of_legal (by simp [State.legal, hr, ha]), effectOf, interpEffect_of_value htemp]
  case setduty => exact exec_setduty hr ha (interp_paramCurve_le s.params c (fxInt w))

/-- Settles O35: `SMOOTH` and `ESTIM` write what a tick writes first, and each channel's two commands are its part of
the tick (`exec_interp_setduty`). -/
theorem tickEqualsTheUnitCommands : Obligations.TickEqualsTheUnitCommands := by
  intro s hr ha0 ha1
  have hafan : s.sampled.active .ch0 = true := ha0
  have hapump : (tickChannel .ch0 (fxInt (tickTemp s)) s.sampled).active .ch1 = true :=
    (tickChannel_active ..).trans ha1
  obtain ⟨s3, d0, hinterp0, hduty0, hset0⟩ := exec_interp_setduty (by simpa using hr) hafan (sampled_temp s)
  obtain ⟨s5, d1, hinterp1, hduty1, hset1⟩ :=
    exec_interp_setduty (w := tickTemp s) (by simpa [tickChannel] using hr) hapump (by simp [tickChannel])
  refine ⟨_, s.sampled, s3, _, s5, _, d0, d1, exec_of_legal (i := .smooth s.rawIn) hr, exec_of_legal (i := .estim) hr,
    hinterp0, hduty0, hset0, hinterp1, hduty1, hset1, ?_⟩
  rw [exec_tick hr, tickEffect_eq_channels, whenActive_of_active hafan, whenActive_of_active hapump]

/-! ### What a tick depends on (45_control_loop.md R155) -/

theorem tickTemp_congr {s u : State} (havg : s.avg = u.avg) (hraw : s.rawIn = u.rawIn) : tickTemp s = tickTemp u := by
  rw [tickTemp, havg, hraw, tickTemp]

theorem tickDuty_congr {s u : State} (havg : s.avg = u.avg) (hparams : s.params = u.params) (hraw : s.rawIn = u.rawIn)
    (c : Ch) : tickDuty s c = tickDuty u c := by
  rw [tickDuty, tickTemp_congr havg hraw, hparams, tickDuty]

/-- What a tick leaves in the registers of a channel, when `TTOP[c]` of each active channel holds `top c`. -/
theorem tickEffect_chan {s : State} {top : Ch → BitVec 8}
    (htop : ∀ c, s.active c = true → (s.chan c).ttop = .value (top c)) (c : Ch) :
    (tickEffect s).chan c = tickRegisters s (top c) c := by
  rw [tickEffect_eq htop]
  cases c <;> rfl

theorem tickRegisters_of_active {s : State} {c : Ch} (ha : s.active c = true) (top : BitVec 8) :
    tickRegisters s top c =
      { s.chan c with duty := .value (tickDuty s c), tcmp := .value (dutyTicks top (tickDuty s c)) } := if_pos ha

/-- Settles O36: the temperature and the duties of a tick are the same in both states (`tickTemp_congr`,
`tickDuty_congr`), and each active channel holds its duty and the compare value of that and of the common TOP. -/
theorem tickHasNoMemoryBeyondTheAverage : Obligations.TickHasNoMemoryBeyondTheAverage := by
  intro s u s' u' hs hu havg hparams hraw htops hs' hu'
  choose! top htops using htops
  have hactive (c : Ch) : s.active c = u.active c := congrArg (paramActive · c) hparams
  have htopS (c : Ch) (ha : s.active c = true) : (s.chan c).ttop = .value (top c) := (htops c ha).1
  have htopU (c : Ch) (ha : u.active c = true) : (u.chan c).ttop = .value (top c) :=
    (htops c ((hactive c).trans ha)).2
  obtain rfl : tickEffect s = s' := Host.Outcome.next.inj ((exec_tick hs).symm.trans hs')
  obtain rfl : tickEffect u = u' := Host.Outcome.next.inj ((exec_tick hu).symm.trans hu')
  refine ⟨?avg, ?temp, fun c ha => ?chan⟩
  case avg => rw [tickEffect_avg, tickEffect_avg, havg, hraw]
  case temp =>
    rw [tickEffect_eq htopS, tickEffect_eq htopU]
    exact congrArg Held.value (tickTemp_congr havg hraw)
  case chan =>
    rw [tickEffect_chan htopS, tickEffect_chan htopU, tickRegisters_of_active ha,
      tickRegisters_of_active ((hactive c).symm.trans ha), tickDuty_congr havg hparams hraw]
    exact ⟨rfl, rfl⟩

end Sys2Proof.Machine

namespace Sys2Proof.Machine

/-! ### The causes of `ILLCMD` (60_exceptions.md R166) -/

/-- R76 read as causes of refusal: a setup command in Running, any other command before it, an inactive channel. -/
theorem legal_eq_false_iff (s : State) (i : Instr) : s.legal i = false ↔
    (s.status.run = true ∧ (i = .init ∨ ∃ c, i = .config c)) ∨
    (s.status.run = false ∧ i ≠ .init ∧ ∀ c, i ≠ .config c) ∨
    ∃ c, s.active c = false ∧ (i = .config c ∨ i = .interp c ∨ ∃ pct, i = .setduty c pct) := by
  cases hr : s.status.run <;> cases i <;> simp [State.legal, hr]

theorem effectOf_illcmd (i : Instr) (s : State) : (effectOf i s).status.illcmd = s.status.illcmd := by
  refine effectOf_keeps (P := fun u => u.status.illcmd = s.status.illcmd) ?avg ?temp ?duty ?timer ?topovf ?pcterr ?run
    ?drawn i rfl
  case topovf => exact fun c b u hu => (noteTopovf_illcmd u.status c b).trans hu
  case avg | temp => exact fun _ _ hu => hu
  case duty | timer => exact fun _ _ _ hu => hu
  case pcterr | run | drawn => exact fun _ hu => hu

/-- Settles O11: (a) and (b) are the values that decode to no command (`decode_eq_illegal_iff`), (c) and (d) the commands
that are not legal (`legal_eq_false_iff`); the effect of a legal command leaves `ILLCMD` alone (`effectOf_illcmd`). -/
theorem illcmdIsSetExactlyByItsFourCauses : Obligations.IllcmdIsSetExactlyByItsFourCauses := by
  intro s w cause hcause
  simp only [← legal_eq_false_iff] at hcause
  rw [← or_assoc, ← decodeHalf_eq_none_iff, ← decode_eq_illegal_iff] at hcause
  rw [hcause]
  cases hd : decode w with
  | illegal why =>
    exact ⟨fun _ => perform_write_illegal hd s, fun hnone => absurd (.inl ⟨why, rfl⟩) hnone⟩
  | command i =>
    rw [perform_write_command hd]
    cases hl : s.legal i with
    | false => exact ⟨fun _ => exec_of_illegal hl, fun hnone => absurd (.inr ⟨i, rfl, hl⟩) hnone⟩
    | true => exact ⟨by simp [hl], fun _ => ⟨_, exec_of_legal hl, effectOf_illcmd i s⟩⟩

/-! ### What a step can do to `STATUS` -/

/-- The host's next access resets the CORE, between commands or during one (70_reset_and_hazards.md R185). -/
def State.resetIsNext (s : State) : Prop :=
  ∃ rest, s.pending = .reset :: rest ∨ ∃ idx w, s.pending = .writeAborted idx w :: rest

/-- All that a step can do to `STATUS`: nothing, what a command does, the refusal of an illegal word, or a reset. -/
theorem step_status {s t : State} (h : step s = .next t) :
    t.status = s.status ∨
    (∃ w rest i, s.pending = .write 0#4 w :: rest ∧ decode w = .command i ∧ exec i (s.accepted rest) = .next t) ∨
    t.status = { s.status with illcmd := true } ∨ (t.status = Status.reset ∧ s.resetIsNext) := by
  obtain ⟨_, rfl⟩ | ⟨a, rest, hp, ha⟩ := step_cases h
  · exact .inl rfl
  · cases a with
    | write idx w =>
      rw [perform] at ha
      obtain ⟨_, e⟩ | ⟨rfl, i, hd, e⟩ | ⟨_, _, _, e⟩ := regWrite_cases idx w (s.accepted rest) <;> rw [e] at ha
      · injection ha with ha
        exact .inl (ha ▸ rfl)
      · exact .inr (.inl ⟨w, rest, i, hp, hd, ha⟩)
      · injection ha with ha
        exact .inr (.inr (.inl (ha ▸ rfl)))
    | read idx =>
      injection ha with ha
      exact .inl (ha ▸ regRead_status idx (s.accepted rest))
    | present raw =>
      injection ha with ha
      exact .inl (ha ▸ rfl)
    | reset =>
      injection ha with ha
      exact .inr (.inr (.inr ⟨ha ▸ rfl, rest, .inl hp⟩))
    | writeAborted idx w =>
      obtain ⟨done, _, rfl⟩ := regWriteAborted_cases ha
      exact .inr (.inr (.inr ⟨rfl, rest, .inr ⟨idx, w, hp⟩⟩))

/-! ### The cause of `PCTERR` (60_exceptions.md R167) -/

@[simp] theorem tickEffect_status (s : State) : (tickEffect s).status = s.status :=
  tickEffect_field State.status (fun c t u => by simp [tickChannel]) s

@[simp] theorem initEffect_pcterr (s : State) : (initEffect s).status.pcterr = s.status.pcterr := by
  simp [initEffect, whenActive_field (·.status.pcterr)]

theorem effectOf_pcterr (i : Instr) (s : State) : (effectOf i s).status.pcterr = s.status.pcterr ∨
    ∃ c pct, i = .setduty c pct ∧ 100 < pct.toNat := by
  cases i with
  | setduty c pct =>
    obtain hp | hp := le_or_gt pct.toNat 100
    · exact .inl (by rw [effectOf, setdutyEffect_of_ok hp, setDuty_status])
    · exact .inr ⟨c, pct, rfl, hp⟩
  | _ => simp [effectOf, smoothEffect, estimEffect]

theorem exec_setduty_of_excess {s : State} {c : Ch} {pct : Percent} (hr : s.status.run = true)
    (ha : s.active c = true) (hp : 100 < pct.toNat) : exec (.setduty c pct) s = .next s.flagPcterr := by
  rw [exec_of_legal (by simp [State.legal, hr, ha]), effectOf, setdutyEffect_of_excess hp]

/-- A command that newly sets `PCTERR` is a legal `SETDUTY` above 100 percent. -/
theorem exec_sets_pcterr {i : Instr} {s t : State} (h : exec i s = .next t) (hs : s.status.pcterr = false)
    (ht : t.status.pcterr = true) :
    ∃ c pct, i = .setduty c pct ∧ 100 < pct.toNat ∧ s.status.run = true ∧ s.active c = true := by
  obtain ⟨hl, rfl⟩ | ⟨_, rfl⟩ := exec_cases h
  · obtain hsame | ⟨c, pct, rfl, hp⟩ := effectOf_pcterr i s
    · simp [hsame, hs] at ht
    · exact ⟨c, pct, rfl, hp, by simpa [State.legal] using hl⟩
  · simp [hs] at ht

/-- Settles O12: of what a step can do to `STATUS` (`step_status`) only a command can set `PCTERR`, and that command is
the one of `exec_sets_pcterr`. -/
theorem pcterrIsSetExactlyByAnExcessivePercentage : Obligations.PcterrIsSetExactlyByAnExcessivePercentage := by
  refine ⟨fun s c pct => exec_setduty_of_excess, fun s t h hs ht => ?_⟩
  obtain e | ⟨w, rest, i, hp, hd, he⟩ | e | ⟨e, _⟩ := step_status h
  case inr.inl =>
    obtain ⟨c, pct, rfl, hpct, hrun, hactive⟩ := exec_sets_pcterr he hs ht
    exact ⟨w, rest, c, pct, hp, hd, hpct, hrun, hactive⟩
  all_goals simp [e, hs, Status.reset] at ht

/-! ### The flags are sticky (60_exceptions.md R172) -/

/-- Every sticky flag set in `t` is set in `u`. -/
def Status.FlagsIn (t u : Status) : Prop :=
  (t.illcmd = true → u.illcmd = true) ∧ (t.pcterr = true → u.pcterr = true) ∧
    ∀ c, t.topovf c = true → u.topovf c = true

namespace Status.FlagsIn

variable {t u : Status}

theorem refl (t : Status) : t.FlagsIn t := ⟨id, id, fun _ => id⟩

theorem setIllcmd (h : t.FlagsIn u) : t.FlagsIn { u with illcmd := true } :=
  let ⟨_, hpcterr, htopovf⟩ := h
  ⟨fun _ => rfl, hpcterr, fun c hc => (topovf_update_illcmd u true c).trans (htopovf c hc)⟩

theorem setPcterr (h : t.FlagsIn u) : t.FlagsIn { u with pcterr := true } :=
  let ⟨hillcmd, _, htopovf⟩ := h
  ⟨hillcmd, fun _ => rfl, fun c hc => (topovf_update_pcterr u true c).trans (htopovf c hc)⟩

theorem setRun (h : t.FlagsIn u) : t.FlagsIn { u with run := true } :=
  let ⟨hillcmd, hpcterr, htopovf⟩ := h
  ⟨hillcmd, hpcterr, fun c hc => (topovf_update_run u true c).trans (htopovf c hc)⟩

theorem noteTopovf (h : t.FlagsIn u) (c : Ch) (b : Bool) : t.FlagsIn (u.noteTopovf c b) := by
  obtain ⟨hillcmd, hpcterr, htopovf⟩ := h
  refine ⟨by simpa using hillcmd, by simpa using hpcterr, fun k hk => ?_⟩
  by_cases hkc : k = c
  · subst hkc
    simp [htopovf k hk]
  · rw [noteTopovf_topovf_other u c k b hkc, htopovf k hk]

end Status.FlagsIn

theorem effectOf_flagsIn (i : Instr) (s : State) : s.status.FlagsIn (effectOf i s).status := by
  refine effectOf_keeps (P := fun u => s.status.FlagsIn u.status) ?avg ?temp ?duty ?timer ?topovf ?pcterr ?run ?drawn i
    (.refl _)
  case topovf => exact fun c b _ hu => hu.noteTopovf c b
  case pcterr => exact fun _ hu => hu.setPcterr
  case run => exact fun _ hu => hu.setRun
  case avg | temp => exact fun _ _ hu => hu
  case duty | timer => exact fun _ _ _ hu => hu
  case drawn => exact fun _ hu => hu

theorem exec_flagsIn {i : Instr} {s t : State} (h : exec i s = .next t) : s.status.FlagsIn t.status := by
  obtain ⟨_, rfl⟩ | ⟨_, rfl⟩ := exec_cases h
  · exact effectOf_flagsIn i s
  · exact (Status.FlagsIn.refl s.status).setIllcmd

theorem step_flagsIn {s t : State} (h : step s = .next t) : s.resetIsNext ∨ s.status.FlagsIn t.status := by
  obtain e | ⟨w, rest, i, _, _, he⟩ | e | ⟨_, hreset⟩ := step_status h
  · exact .inr (e ▸ .refl _)
  · exact .inr (exec_flagsIn (s := s.accepted rest) he)
  · exact .inr (e ▸ (Status.FlagsIn.refl s.status).setIllcmd)
  · exact .inl hreset

/-! ### No command reads a flag (60_exceptions.md R172) -/

/-- `STATUS` replaced. -/
def State.setStatus (f : Status) (s : State) : State := { s with status := f }

/-- `e` reads no sticky flag: from a state with other flags and the same `RUN` it comes to the same state, the flags
apart. -/
def IgnoresFlags (e : State → State) : Prop :=
  ∀ (s : State) (f : Status), f.run = s.status.run →
    ∃ f', e (s.setStatus f) = (e s).setStatus f' ∧ f'.run = (e s).status.run

namespace IgnoresFlags

/-- What neither reads nor writes `STATUS` ignores the flags. -/
theorem of_frame {e : State → State} (hcomm : ∀ f s, e (State.setStatus f s) = (e s).setStatus f)
    (hstatus : ∀ s, (e s).status = s.status) : IgnoresFlags e :=
  fun s f hf => ⟨f, hcomm f s, by rw [hstatus, hf]⟩

theorem comp {e g : State → State} (hg : IgnoresFlags g) (he : IgnoresFlags e) : IgnoresFlags fun s => g (e s) := by
  intro s f hf
  obtain ⟨f', hef, hrun⟩ := he s f hf
  simpa only [hef] using hg (e s) f' hrun

theorem whenActive {c : Ch} {e : State → State} (he : IgnoresFlags e) : IgnoresFlags (whenActive c e) := by
  intro s f hf
  cases ha : s.active c with
  | true => simpa only [whenActive_of_active ha, whenActive_of_active (s := s.setStatus f) ha] using he s f hf
  | false => exact ⟨f, by rw [whenActive_of_inactive ha, whenActive_of_inactive (s := s.setStatus f) ha], by
      rw [hf, whenActive_of_inactive ha]⟩

theorem flagIllcmd : IgnoresFlags State.flagIllcmd := fun _ f hf => ⟨{ f with illcmd := true }, rfl, hf⟩

theorem flagPcterr : IgnoresFlags State.flagPcterr := fun _ f hf => ⟨{ f with pcterr := true }, rfl, hf⟩

theorem configure (c : Ch) : IgnoresFlags (configure c) := fun s f hf =>
  ⟨f.noteTopovf c (channelSelection s.params c).overflow, rfl, by simpa using hf⟩

theorem setDuty (c : Ch) (pct : Percent) : IgnoresFlags (setDuty c pct) := by
  refine of_frame (fun f s => ?_) (setDuty_status c pct)
  cases h : (s.chan c).ttop with
  | value v => simp only [Machine.setDuty, topRead_of_value h, topRead_of_value (s := s.setStatus f) h]; rfl
  | noValue => simp only [Machine.setDuty, topRead_of_noValue h, topRead_of_noValue (s := s.setStatus f) h]; rfl

theorem interpEffect (c : Ch) : IgnoresFlags (interpEffect c) := by
  refine of_frame (fun f s => ?_) (interpEffect_status c)
  cases h : s.temp with
  | value w => rw [interpEffect_of_value h, interpEffect_of_value (s := s.setStatus f) h]; rfl
  | noValue => rw [interpEffect_of_noValue h, interpEffect_of_noValue (s := s.setStatus f) h]; rfl

theorem setdutyEffect (c : Ch) (pct : Percent) : IgnoresFlags (setdutyEffect c pct) := by
  obtain hp | hp := le_or_gt pct.toNat 100
  · exact funext (setdutyEffect_of_ok hp c) ▸ setDuty c pct
  · exact funext (setdutyEffect_of_excess hp c) ▸ flagPcterr

theorem initEffect : IgnoresFlags initEffect := by
  have hfinish : IgnoresFlags fun s => (s.writeAvg (fx mid)).startRun := fun _ f _ => ⟨{ f with run := true }, rfl, rfl⟩
  exact hfinish.comp ((configure .ch1).whenActive.comp (configure .ch0).whenActive)

theorem writeDuty (c : Ch) (v : Percent) : IgnoresFlags (State.writeDuty c v) :=
  of_frame (fun _ _ => rfl) (writeDuty_status c v)

theorem tickChannel (c : Ch) (x : Int) : IgnoresFlags (tickChannel c x) :=
  fun s => (setDuty c (interp (paramCurve s.params c) x)).comp
    (writeDuty c (interp (paramCurve s.params c) x)) s

/-- The temperature of a tick reads no flag, so both states come to their channels with the same one. -/
theorem tickEffect : IgnoresFlags tickEffect := fun s =>
  (tickChannel .ch1 (fxInt (tickTemp s))).whenActive.comp (tickChannel .ch0 (fxInt (tickTemp s))).whenActive s.sampled

theorem effectOf (i : Instr) : IgnoresFlags (effectOf i) := by
  cases i with
  | init => exact initEffect
  | config c => exact configure c
  | smooth raw => exact of_frame (fun _ _ => rfl) fun _ => rfl
  | estim => exact of_frame (fun _ _ => rfl) fun _ => rfl
  | interp c => exact interpEffect c
  | setduty c pct => exact setdutyEffect c pct
  | tick => exact tickEffect

end IgnoresFlags

/-- Legality reads `RUN` and no flag. -/
theorem setStatus_legal {s : State} {f : Status} (hf : f.run = s.status.run) (i : Instr) :
    (s.setStatus f).legal i = s.legal i := by
  cases i <;> simp only [State.legal, State.setStatus, hf] <;> rfl

theorem exec_setStatus {i : Instr} {s t : State} {f : Status} (hf : f.run = s.status.run) (h : exec i s = .next t) :
    ∃ f', exec i (s.setStatus f) = .next (t.setStatus f') ∧ f'.run = t.status.run := by
  obtain ⟨hl, rfl⟩ | ⟨hl, rfl⟩ := exec_cases h
  · obtain ⟨f', he, hrun⟩ := IgnoresFlags.effectOf i s f hf
    exact ⟨f', he ▸ exec_of_legal ((setStatus_legal hf i).trans hl), hrun⟩
  · obtain ⟨f', he, hrun⟩ := IgnoresFlags.flagIllcmd s f hf
    exact ⟨f', he ▸ exec_of_illegal ((setStatus_legal hf i).trans hl), hrun⟩

/-- Settles O41: each write to `STATUS` keeps the flags that are set (`exec_flagsIn`, `step_flagsIn`), and legality and
every effect ignore them (`exec_setStatus`). -/
theorem stickyFlagsStayAndAreNeverRead : Obligations.StickyFlagsStayAndAreNeverRead :=
  ⟨fun _ _ _ => exec_flagsIn, fun _ _ => step_flagsIn, fun _ _ _ _ => exec_setStatus⟩

/-! ### `fault_out` (60_exceptions.md R170) -/

theorem faultOut_iff (s : State) : s.faultOut = true ↔
    s.status.illcmd = true ∨ s.status.pcterr = true ∨ ∃ c, s.status.topovf c = true := by
  have htopovf : (∃ c, s.status.topovf c = true) ↔ s.status.topovf0 = true ∨ s.status.topovf1 = true := by
    refine ⟨?_, fun h => h.elim (⟨.ch0, ·⟩) (⟨.ch1, ·⟩)⟩
    rintro ⟨_ | _, hc⟩
    · exact .inl hc
    · exact .inr hc
  simp only [State.faultOut, Bool.or_eq_true, htopovf, or_assoc]

theorem faultOut_of_flagsIn {s t : State} (h : s.status.FlagsIn t.status) (hs : s.faultOut = true) :
    t.faultOut = true := by
  rw [faultOut_iff] at hs ⊢
  obtain ⟨hillcmd, hpcterr, htopovf⟩ := h
  exact hs.imp hillcmd (Or.imp hpcterr (Exists.imp htopovf))

/-- Settles O50: the bits of the `STATUS` word are those of O49, a set flag stays set but for a reset
(`step_flagsIn`), and every step completes (O51). -/
theorem faultOutIsTheOrOfTheFlags : Obligations.FaultOutIsTheOrOfTheFlags := by
  refine ⟨fun s => ?word, fun s t hs h => ?stays, everyCommandAndEveryStepCompletes.2⟩
  case word =>
    have hbit (k : Nat) := statusBitsStandWhereStated s.status k
    simp only [hbit]
    rfl
  case stays => exact (step_flagsIn h).symm.imp_left fun hkept => faultOut_of_flagsIn hkept hs

end Sys2Proof.Machine

namespace Sys2Proof.Machine

/-! ### Reset between and during commands (70_reset_and_hazards.md R185) -/

theorem statusReset_word : Status.reset.word = 0#32 := by decide

/-- Settles O2: reset is `State.resetRegisters`, also for the write it abandons, whose command would have completed
(`regWrite_completes`) and of whose events the free count is kept (`perform_writeAborted`). -/
theorem resetEmitsNothingAndMayAbandonACommand : Obligations.ResetEmitsNothingAndMayAbandonACommand := by
  refine fun s => ⟨?between, fun idx w => ?during⟩
  case between =>
    exact ⟨s.resetRegisters, rfl, resetRegisters_events s, resetRegisters_params s, resetRegisters_rawIn s,
      statusReset_word, resetRegisters_avg s, resetRegisters_temp s, rfl, rfl⟩
  case during =>
    obtain ⟨done, hdone⟩ := regWrite_completes idx w s
    exact ⟨done, abandoned s done, Config.freeCount done.draws, hdone, perform_writeAborted hdone,
      statusReset_word, rfl, rfl, rfl, rfl, abandoned_params s done, rfl, rfl⟩

/-! ### `INTERP` without a temperature (10_state.md R30 (b), 70_reset_and_hazards.md R192) -/

theorem freeDuty_toNat_le (n : Nat) : (BitVec.ofNat 7 (Config.freeDuty n).val).toNat ≤ 100 := by
  have hfree := (Config.freeDuty n).isLt
  rw [BitVec.toNat_ofNat]
  omega

/-- Settles O21: the effect is the write of the free duty with one free value counted (`interpEffect_of_noValue`). -/
theorem interpWithoutTemperatureWritesAFreeDuty : Obligations.InterpWithoutTemperatureWritesAFreeDuty := by
  intro s c hrun hactive htemp
  have hlegal : s.legal (.interp c) = true := by simp [State.legal, hrun, hactive]
  refine ⟨BitVec.ofNat 7 (Config.freeDuty s.draws).val, freeDuty_toNat_le s.draws, ?_⟩
  rw [exec_of_legal hlegal, effectOf, interpEffect_of_noValue htemp, State.writeDuty, drawn_chan]
  rfl

end Sys2Proof.Machine
